-- ==== Sys2Proof/Word.lean ====
section
/-! DEFINITION. The words of the block: bytes, command words, frame words, and what can stand on its input. -/

namespace Sys2Proof

/-- A byte, `u8` (00_scope.md R13): segment masks, register addresses and data bytes. -/
abbrev Byte := BitVec 8

/-- A command word (30_encoding.md R71). -/
abbrev Word := BitVec 32

/-- A frame word: the register address in bits 15..8, the data byte in bits 7..0 (30_encoding.md R78). -/
abbrev FrameWord := BitVec 16

/-- One item of the block's input: a command word, or a direct use of the register write primitive
`writeRegister` given as the frame it sends (00_scope.md R4; notes/assumptions/1.md, DESIGN CHOICE). -/
inductive PortWord where
  | command (w : Word)
  | frame (w : FrameWord)
deriving DecidableEq, Repr

end Sys2Proof
end

