-- ==== Sys2Proof/Config.lean ====
section
/-! DEFINITION. What an implementation fixes (00_scope.md R7 to R12) and the free values of the environment. -/

namespace Sys2Proof

/-- What the transport reports for one frame (20_memory.md R65). -/
inductive TransportResult where
  | ok
  | fail
deriving DecidableEq, Repr, Inhabited

/-- `DIGIT_LUT` (00_scope.md R8): the 16-entry digit table, a parameter with no value in the source. Free
(notes/assumptions/4.md). -/
opaque Config.digitLut : Fin 16 → Byte

/-- `LETTER_LUT` (00_scope.md R9): the 26-entry letter table, a parameter with no value in the source. Free
(notes/assumptions/4.md). -/
opaque Config.letterLut : Fin 26 → Byte

/-- `TEST_OVERRIDES_SHUTDOWN` (00_scope.md R12): whether display test shows while SHUTDOWN is 0. Free
(notes/assumptions/5.md). -/
opaque Config.testOverridesShutdown : Bool

/-- `TEST_LIGHTS_DP` (00_scope.md R12): whether display test lights the decimal point. Free
(notes/assumptions/5.md). -/
opaque Config.testLightsDp : Bool

/-- The environment's answer to the `k`-th draw since reset, under no law (20_memory.md R65). Free
(notes/assumptions/3.md). -/
opaque Config.transportOutcome : Nat → TransportResult

/-- `SPI_MODE` (00_scope.md R11): open, and no rule depends on it. -/
opaque Config.spiMode : Nat

/-- `BIT_CLOCK` (00_scope.md R11): open, and no rule depends on it. -/
opaque Config.bitClock : Nat

/-- Chip-select setup time (00_scope.md R11): open, and no rule depends on it. -/
opaque Config.chipSelectSetup : Nat

/-- Chip-select hold time (00_scope.md R11): open, and no rule depends on it. -/
opaque Config.chipSelectHold : Nat

/-- `CHAR_BITS` (00_scope.md R10): the width of the character operand. -/
def Config.charBits : Nat := 21

/-- The default of `DIGIT_COUNT` (00_scope.md R7). -/
def Config.defaultDigitCount : Nat := 8

/-- The digit counts the spec admits (00_scope.md R7, 90_conflicts.md C6). -/
abbrev Config.legalDigitCount (n : Nat) : Prop := 1 ≤ n ∧ n ≤ 8

/-- The named property `DIGIT_LUT_DP_CLEAR` of a digit table (00_scope.md R8, 43_encoder.md R131). -/
abbrev Config.digitLutDpClear (lut : Fin 16 → Byte) : Prop := ∀ d, (lut d).getLsbD 7 = false

/-- The named property `LETTER_LUT_DP_CLEAR` of a letter table (00_scope.md R9). No rule assumes it. -/
abbrev Config.letterLutDpClear (lut : Fin 26 → Byte) : Prop := ∀ k, (lut k).getLsbD 7 = false

end Sys2Proof
end

