-- ==== Sys2Proof/Machine/State.lean ====
section
/-! DEFINITION. The state of the block (10_state.md), its reset value, and the reasons a step can stop. -/

namespace Sys2Proof.Machine

/-- The completion status of the last command (10_state.md R26). -/
inductive Status where
  | ok
  | busError
deriving DecidableEq, Repr

/-- A frame: one register transaction, two bytes `[addr, data]` (20_memory.md R51). -/
structure Frame where
  addr : Byte
  data : Byte
deriving DecidableEq, Repr

/-- One entry of the trace, `(a, d, outcome)` (10_state.md R31). -/
structure FrameRecord where
  frame : Frame
  outcome : TransportResult
deriving DecidableEq, Repr

/-- What the block knows of the controller's register space: an address with its last known byte. An unlisted
address is Unknown (10_state.md R30). -/
abbrev Memory := List Host.Cell

/-- The canonical form of a memory: addresses strictly rising, each an 8-bit address (20_memory.md R56). A listed
address is always Known, so no entry equals what an unlisted address reads as. -/
abbrev Memory.wf (m : Memory) : Prop :=
  m.Pairwise (fun x y => x.1 < y.1) ∧ ∀ c ∈ m, c.1 < 256

/-- The state of the block. The last three fields are the model's own: the input and the transport's answers. -/
@[ext]
structure State where
  /-- The digit buffer, one byte per logical index; its length is `DIGIT_COUNT` (10_state.md R21). -/
  buf : List Byte
  /-- The intensity level (10_state.md R22). -/
  brightness : BitVec 4
  /-- The orientation flag (10_state.md R23). -/
  reverse : Bool
  /-- The level of the chip-select output, active low (10_state.md R25). -/
  csN : Bool
  /-- The completion status of the last command (10_state.md R26). -/
  status : Status
  /-- The sticky failure bit (10_state.md R27). -/
  faultSeen : Bool
  /-- The index of the next frame in a multi-frame command's list (10_state.md R28). -/
  seq : Nat
  /-- Ghost: what the controller has been told (10_state.md R30). -/
  shadow : Memory
  /-- Ghost: every frame started since reset, oldest first (10_state.md R31). -/
  trace : List FrameRecord
  /-- The words waiting on the command port, in arrival order (10_state.md R28; notes/assumptions/2.md). -/
  port : List PortWord
  /-- Transport answers the environment has fixed already, oldest first (20_memory.md R65;
  notes/assumptions/3.md). -/
  outcomes : List TransportResult
  /-- How many answers have been drawn: the argument of the free value (20_memory.md R65;
  notes/assumptions/3.md). -/
  draws : Nat
deriving DecidableEq, Repr

/-- `N`, the digit count: the length of the buffer (00_scope.md R7, 10_state.md R21). -/
abbrev State.digitCount (s : State) : Nat := s.buf.length

/-- Why the machine stops with a fault: never. The spec's one exception is taken as a next state
(60_exceptions.md R181), its silent cases must not be faults (R185), and no behaviour stops the block. -/
inductive Fault where
deriving DecidableEq, Repr

/-- Why a step has no meaning. -/
inductive Refusal where
  /-- An instruction with no meaning yet, raised by an arm of exec. Safe: nothing is claimed of it. -/
  | notModelled (mnemonic : String)
  /-- `IllegalCommand(w)`: a reserved opcode or a non-zero unused field, raised by step (60_exceptions.md R186).
  Safe: the spec gives the word no step. -/
  | illegalCommand (w : Word)
  /-- A frame word that is none of the block's frames, raised by step (30_encoding.md R79: no other frame is
  emitted). Safe: the block sends no such frame. -/
  | unlistedFrame (w : FrameWord)
deriving DecidableEq, Repr

/-- The state right after construction with digit count `n` (70_reset_and_hazards.md R200). -/
def State.resetWith (n : Nat) : State where
  buf := List.replicate n 0x00#8
  brightness := 7
  reverse := true
  csN := true
  status := .ok
  faultSeen := false
  seq := 0
  shadow := []
  trace := []
  port := []
  outcomes := []
  draws := 0

/-- Construction, refusing a digit count outside 1..8 (00_scope.md R7). -/
def State.construct (n : Nat) : Option State :=
  if Config.legalDigitCount n then some (State.resetWith n) else none

/-- The machine right after reset, at the default digit count 8 (00_scope.md R7, 70_reset_and_hazards.md R200). -/
def State.reset : State := State.resetWith Config.defaultDigitCount

end Sys2Proof.Machine
end

