-- ==== Sys2Proof/Machine/Operands.lean ====
section
/-! DEFINITION. Operand forms of the commands: the index guard, the physical position and its register, the level. -/

namespace Sys2Proof.Machine

/-- The range guard `0 <= index and index < N` (44_content.md R150, R151). -/
abbrev indexInRange (n : Nat) (index : Int) : Prop := 0 ≤ index ∧ index < n

/-- The range guard `0 <= level and level <= 15` (42_configuration.md R120). -/
abbrev levelInRange (level : Int) : Prop := 0 ≤ level ∧ level ≤ 15

/-- The physical position of a logical index `i < n` (20_memory.md R58). -/
def phys (n : Nat) (reverse : Bool) (i : Nat) : Nat := if reverse then n - 1 - i else i

/-- `DIGIT_BASE`, the register address of physical position 0 (10_state.md R33). -/
def digitBase : Byte := 0x01

/-- The register a logical index is written to, `DIGIT_BASE + phys(i)` (20_memory.md R58). -/
def digitReg (n : Nat) (reverse : Bool) (i : Nat) : Byte := digitBase + BitVec.ofNat 8 (phys n reverse i)

/-- An in-range level as the value of the brightness register (42_configuration.md R120). -/
def levelBits (level : Int) : BitVec 4 := BitVec.ofNat 4 level.toNat

/-- `zext_8(brightness)`, the INTENSITY data byte (41_lifecycle.md R100, 42_configuration.md R120). -/
def intensityData (b : BitVec 4) : Byte := b.setWidth 8

/-! ### Addresses of the controller's registers (20_memory.md R57) -/

/-- NOOP, never written by the block (10_state.md R32). -/
def regNoop : Byte := 0x00
/-- DECODE_MODE (10_state.md R34). -/
def regDecodeMode : Byte := 0x09
/-- INTENSITY (10_state.md R35). -/
def regIntensity : Byte := 0x0A
/-- SCAN_LIMIT (10_state.md R36). -/
def regScanLimit : Byte := 0x0B
/-- SHUTDOWN (10_state.md R37). -/
def regShutdown : Byte := 0x0C
/-- DISPLAY_TEST (10_state.md R38). -/
def regDisplayTest : Byte := 0x0F

/-! ### The frame as bytes and bits (20_memory.md R51, R52; 30_encoding.md R78) -/

/-- The two bytes of a frame in the order they are sent (20_memory.md R51). -/
def Frame.bytes (f : Frame) : List Byte := [f.addr, f.data]

/-- The frame as a 16-bit value, the address in the high byte (30_encoding.md R78). -/
def Frame.word (f : Frame) : FrameWord := f.addr ++ f.data

/-- The bits of a byte, most significant first (20_memory.md R52). -/
def byteBits (b : Byte) : List Bool := (List.range 8).map fun k => b.getMsbD k

/-- The bits of a frame in the order they leave the block (20_memory.md R52). -/
def Frame.wireBits (f : Frame) : List Bool := f.bytes.flatMap byteBits

end Sys2Proof.Machine
end

