-- ==== Sys2Proof/Machine/Ops.lean ====
section
/-! DEFINITION. Named operations over the state: one setter per field, the controller shadow, the transport, the
frame primitive, the exception, the sequencer, and the SET_MASK core. -/

namespace Sys2Proof.Machine

/-! ### One setter per field -/

def State.setBuf (s : State) (v : List Byte) : State := { s with buf := v }
def State.setBrightness (s : State) (v : BitVec 4) : State := { s with brightness := v }
def State.setReverse (s : State) (v : Bool) : State := { s with reverse := v }
def State.setCsN (s : State) (v : Bool) : State := { s with csN := v }
def State.setStatus (s : State) (v : Status) : State := { s with status := v }
def State.setFaultSeen (s : State) (v : Bool) : State := { s with faultSeen := v }
def State.setSeq (s : State) (v : Nat) : State := { s with seq := v }
def State.setShadow (s : State) (v : Memory) : State := { s with shadow := v }
def State.setTrace (s : State) (v : List FrameRecord) : State := { s with trace := v }
def State.setPort (s : State) (v : List PortWord) : State := { s with port := v }
def State.setOutcomes (s : State) (v : List TransportResult) : State := { s with outcomes := v }
def State.setDraws (s : State) (v : Nat) : State := { s with draws := v }

/-! ### The controller shadow (10_state.md R30) -/

/-- The known byte of an address, `none` for Unknown. -/
def Memory.read : Memory → Nat → Option Byte
  | [], _ => none
  | c :: m, a => if a = c.1 then some c.2 else Memory.read m a

/-- `shadow[a] <- Known(d)`, keeping the canonical form. -/
def Memory.write : Memory → Nat → Byte → Memory
  | [], a, d => [(a, d)]
  | c :: m, a, d =>
    if a < c.1 then (a, d) :: c :: m
    else if a = c.1 then (a, d) :: m
    else c :: Memory.write m a d

/-- Every entry Unknown (20_memory.md R50). -/
def Memory.unknown : Memory := []

/-- `shadow[a]` of a state. -/
def State.known (s : State) (a : Byte) : Option Byte := s.shadow.read a.toNat

/-! ### The transport (20_memory.md R65) -/

/-- `assertSelect()`: chip-select low. -/
def assertSelect (s : State) : State := s.setCsN false

/-- `deassertSelect()`: chip-select high. -/
def deassertSelect (s : State) : State := s.setCsN true

/-- The answer the transport gives `k` frames from now: fixed by the environment already, or free. -/
def State.outcomeAt (s : State) (k : Nat) : TransportResult :=
  match s.outcomes[k]? with
  | some r => r
  | none => Config.transportOutcome (s.draws + k)

/-- The state once one answer has been drawn. -/
def State.afterDraw (s : State) : State := (s.setOutcomes s.outcomes.tail).setDraws (s.draws + 1)

/-- `transmit(bytes)`: the answer of the transport, drawn under no law. -/
def transmit (s : State) : TransportResult × State := (s.outcomeAt 0, s.afterDraw)

/-! ### A command in progress, and the one exception -/

/-- A command in progress: still running, or ended by TransportFailure. -/
inductive Progress where
  | running (s : State)
  | raised (s : State)
deriving DecidableEq, Repr

/-- The state reached, whether the command still runs or was ended. -/
def Progress.state : Progress → State
  | .running s => s
  | .raised s => s

/-- Go on if the command still runs: a raise ends it, and the rest of its pseudocode is not run
(60_exceptions.md R181). -/
def Progress.andThen : Progress → (State → Progress) → Progress
  | .running s, f => f s
  | .raised s, _ => .raised s

/-- Taking the exception TransportFailure, the block's only one: status BUS_ERROR, fault_seen 1, seq 0
(60_exceptions.md R181). Nothing is undone (R182). The failing frame is the last entry of the trace and the shadow is
all Unknown when it is taken. There is no return from it: the block is then idle (R184). -/
def takeTransportFailure (s : State) : State := ((s.setStatus .busError).setFaultSeen true).setSeq 0

/-! ### The frame primitive -/

/-- `trace <- trace ++ [(a, d, r)]` (20_memory.md R50). -/
def recordFrame (f : Frame) (r : TransportResult) (s : State) : State := s.setTrace (s.trace ++ [⟨f, r⟩])

/-- After the frame has ended: the shadow knows the byte, or knows nothing and TransportFailure is raised
(20_memory.md R50). -/
def settleFrame (f : Frame) (r : TransportResult) (s : State) : Progress :=
  match r with
  | .ok => .running (s.setShadow (s.shadow.write f.addr.toNat f.data))
  | .fail => .raised (takeTransportFailure (s.setShadow Memory.unknown))

/-- `WriteRegister(a, d)`: the only way the block changes anything outside itself (20_memory.md R50). -/
def writeRegister (a d : Byte) (s : State) : Progress :=
  let f : Frame := ⟨a, d⟩
  let sent := transmit (assertSelect s)
  settleFrame f sent.1 (recordFrame f sent.1 (deassertSelect sent.2))

/-! ### The SET_MASK core -/

/-- `SetMaskCore(index, mask)`: out of range nothing; in range the buffer is written first, then the frame is sent
(44_content.md R150 to R153). -/
def setMaskCore (index : Int) (mask : Byte) (s : State) : Progress :=
  if indexInRange s.digitCount index then
    writeRegister (digitReg s.digitCount s.reverse index.toNat) mask (s.setBuf (s.buf.set index.toNat mask))
  else
    .running s

/-! ### The sequencer of a multi-frame command (10_state.md R28) -/

/-- Run the actions of a frame list in order, `seq` counting the frames done. -/
def runSequence : List (State → Progress) → State → Progress
  | [], s => .running s
  | act :: acts, s => (act s).andThen fun t => runSequence acts (t.setSeq (t.seq + 1))

/-- A multi-frame command: `seq` is 0 when it starts and 0 again when it ends (10_state.md R28). -/
def runMultiFrame (acts : List (State → Progress)) (s : State) : Progress :=
  (runSequence acts (s.setSeq 0)).andThen fun t => .running (t.setSeq 0)

/-- The clears of CLEAR_ALL: `SetMaskCore(i, 0x00)` for `i` in `0..n-1`, in that order (44_content.md R156). -/
def clearActions (n : Nat) : List (State → Progress) := (List.range n).map fun (i : Nat) => setMaskCore (i : Int) 0x00

end Sys2Proof.Machine
end

