-- ==== Sys2Proof/Machine/Flags.lean ====
section
/-! DEFINITION. Completion: the block has no condition flags (10_state.md R29); `status` and `fault_seen` are its only
status bits, and these operations and TransportFailure are all that writes them. -/

namespace Sys2Proof.Machine

/-- The end of a command: status OK if its pseudocode ran to the end, also as a no-op (60_exceptions.md R180), and
what TransportFailure left if it was ended (R181). -/
def completeCommand (p : Progress) : Host.Outcome State Fault Refusal :=
  .next (p.andThen fun s => .running (s.setStatus .ok)).state

/-- The end of a frame sent on its own: WriteRegister writes no flags when the frame succeeds (20_memory.md R50), and
TransportFailure does as always. -/
def completeFrame (p : Progress) : Host.Outcome State Fault Refusal := .next p.state

end Sys2Proof.Machine
end

