-- ==== Sys2Proof/Machine/Configuration.lean ====
section
/-! DEFINITION. Configuration commands (42_configuration.md). -/

namespace Sys2Proof.Machine

/-- SET_BRIGHTNESS: stored first, then sent; out of range a no-op (42_configuration.md R120 to R123). -/
def execSetBrightness (level : Int) (s : State) : Host.Outcome State Fault Refusal :=
  completeCommand <|
    if levelInRange level then
      writeRegister regIntensity (intensityData (levelBits level)) (s.setBrightness (levelBits level))
    else
      .running s

/-- SET_REVERSE: stored, nothing sent (42_configuration.md R124, R125). -/
def execSetReverse (flag : Bool) (s : State) : Host.Outcome State Fault Refusal :=
  completeCommand (.running (s.setReverse flag))

end Sys2Proof.Machine
end

