-- ==== Sys2Proof/Machine/Encoder.lean ====
section
/-! DEFINITION. The seven-segment encoder and the decimal-point mux: pure functions of their operands and of the two
constant tables (43_encoder.md). -/

namespace Sys2Proof.Machine

/-- `DigitMask` for a given digit table (43_encoder.md R130). -/
def digitMaskWith (digitLut : Fin 16 → Byte) (digit : Int) : Byte :=
  if h : 0 ≤ digit ∧ digit ≤ 15 then digitLut ⟨digit.toNat, by omega⟩ else 0x00

/-- A letter's mask: the table entry at offset `k`, for `k` in 0..25 (43_encoder.md R134). -/
def letterMaskWith (letterLut : Fin 26 → Byte) (k : Int) : Byte :=
  if h : 0 ≤ k ∧ k ≤ 25 then letterLut ⟨k.toNat, by omega⟩ else 0x00

/-- `CharMask` for given tables (43_encoder.md R132). -/
def charMaskWith (digitLut : Fin 16 → Byte) (letterLut : Fin 26 → Byte) (cp : Int) : Byte :=
  if 0x30 ≤ cp ∧ cp ≤ 0x39 then digitMaskWith digitLut (cp - 0x30)
  else if 0x41 ≤ cp ∧ cp ≤ 0x5A then letterMaskWith letterLut (cp - 0x41)
  else if 0x61 ≤ cp ∧ cp ≤ 0x7A then letterMaskWith letterLut (cp - 0x61)
  else if cp = 0x2D then 0x01
  else if cp = 0x5F then 0x08
  else if cp = 0xB0 then 0x63
  else if cp = 0x5B ∨ cp = 0x28 then 0x4E
  else if cp = 0x5D ∨ cp = 0x29 then 0x78
  else 0x00

/-- `DigitMask(digit)` (43_encoder.md R130). -/
def digitMask (digit : Int) : Byte := digitMaskWith Config.digitLut digit

/-- `CharMask(cp)` (43_encoder.md R132). -/
def charMask (cp : Int) : Byte := charMaskWith Config.digitLut Config.letterLut cp

/-- `DotMux(m, dot)` (43_encoder.md R139). -/
def dotMux (m : Byte) (dot : Bool) : Byte := if dot then m ||| 0x80 else m

/-- `DotSet(m)` (43_encoder.md R141). -/
def dotSet (m : Byte) : Byte := m ||| 0x80

/-- `DotClear(m)` (43_encoder.md R141). -/
def dotClear (m : Byte) : Byte := m &&& 0x7F

/-- A segment of the display, with the decimal point (30_encoding.md R80). -/
inductive Segment where
  | middle
  | topLeft
  | bottomLeft
  | bottom
  | bottomRight
  | topRight
  | top
  | decimalPoint
deriving DecidableEq, Repr

/-- The mask bit of a segment (30_encoding.md R80; DEDUCED there by R84, notes/assumptions/6.md). -/
def segmentBit : Segment → Nat
  | .middle => 0
  | .topLeft => 1
  | .bottomLeft => 2
  | .bottom => 3
  | .bottomRight => 4
  | .topRight => 5
  | .top => 6
  | .decimalPoint => 7

/-- Whether a mask lights a segment (30_encoding.md R80, R82). -/
def lights (m : Byte) (g : Segment) : Bool := m.getLsbD (segmentBit g)

end Sys2Proof.Machine
end

