-- ==== Sys2Proof/Machine/Content.lean ====
section
/-! DEFINITION. Content commands (44_content.md). -/

namespace Sys2Proof.Machine

/-- SET_MASK (44_content.md R150 to R153). -/
def execSetMask (index : Int) (mask : Byte) (s : State) : Host.Outcome State Fault Refusal :=
  completeCommand (setMaskCore index mask s)

/-- CLEAR (44_content.md R154). -/
def execClear (index : Int) (s : State) : Host.Outcome State Fault Refusal :=
  completeCommand (setMaskCore index 0x00 s)

/-- CLEAR_ALL (44_content.md R156, R157). -/
def execClearAll (s : State) : Host.Outcome State Fault Refusal :=
  completeCommand (runMultiFrame (clearActions s.digitCount) s)

/-- SET_DIGIT (44_content.md R158 to R160). -/
def execSetDigit (index digit : Int) (dot : Bool) (s : State) : Host.Outcome State Fault Refusal :=
  completeCommand (setMaskCore index (dotMux (digitMask digit) dot) s)

/-- SET_CHAR (44_content.md R161, R162). -/
def execSetChar (index cp : Int) (dot : Bool) (s : State) : Host.Outcome State Fault Refusal :=
  completeCommand (setMaskCore index (dotMux (charMask cp) dot) s)

/-- The read-modify-write of SET_DOT and CLEAR_DOT: out of range `buf` is not read (44_content.md R165, R168). -/
def modifyMask (index : Int) (f : Byte → Byte) (s : State) : Progress :=
  if indexInRange s.digitCount index then
    match s.buf[index.toNat]? with
    | some b => setMaskCore index (f b) s
    | none => .running s
  else
    .running s

/-- SET_DOT (44_content.md R165). -/
def execSetDot (index : Int) (s : State) : Host.Outcome State Fault Refusal :=
  completeCommand (modifyMask index dotSet s)

/-- CLEAR_DOT (44_content.md R168). -/
def execClearDot (index : Int) (s : State) : Host.Outcome State Fault Refusal :=
  completeCommand (modifyMask index dotClear s)

end Sys2Proof.Machine
end

