-- ==== Sys2Proof/Machine/Frames.lean ====
section
/-! DEFINITION. The frame rows of the opcode table: the register write primitive at each frame the block can emit
(20_memory.md R50, 30_encoding.md R79, 10_state.md R33 to R38; notes/assumptions/1.md, DESIGN CHOICE). -/

namespace Sys2Proof.Machine

/-- The bit of a register whose data byte is 0x00 or 0x01 (10_state.md R37, R38). -/
def bitData (b : Bool) : Byte := (BitVec.ofBool b).setWidth 8

/-- FRAME_DIGIT0: physical position 0 (10_state.md R33). -/
def execFrameDigit0 (d : Byte) (s : State) : Host.Outcome State Fault Refusal :=
  completeFrame (writeRegister (digitBase + 0) d s)

/-- FRAME_DIGIT1: physical position 1 (10_state.md R33). -/
def execFrameDigit1 (d : Byte) (s : State) : Host.Outcome State Fault Refusal :=
  completeFrame (writeRegister (digitBase + 1) d s)

/-- FRAME_DIGIT2: physical position 2 (10_state.md R33). -/
def execFrameDigit2 (d : Byte) (s : State) : Host.Outcome State Fault Refusal :=
  completeFrame (writeRegister (digitBase + 2) d s)

/-- FRAME_DIGIT3: physical position 3 (10_state.md R33). -/
def execFrameDigit3 (d : Byte) (s : State) : Host.Outcome State Fault Refusal :=
  completeFrame (writeRegister (digitBase + 3) d s)

/-- FRAME_DIGIT4: physical position 4 (10_state.md R33). -/
def execFrameDigit4 (d : Byte) (s : State) : Host.Outcome State Fault Refusal :=
  completeFrame (writeRegister (digitBase + 4) d s)

/-- FRAME_DIGIT5: physical position 5 (10_state.md R33). -/
def execFrameDigit5 (d : Byte) (s : State) : Host.Outcome State Fault Refusal :=
  completeFrame (writeRegister (digitBase + 5) d s)

/-- FRAME_DIGIT6: physical position 6 (10_state.md R33). -/
def execFrameDigit6 (d : Byte) (s : State) : Host.Outcome State Fault Refusal :=
  completeFrame (writeRegister (digitBase + 6) d s)

/-- FRAME_DIGIT7: physical position 7 (10_state.md R33). -/
def execFrameDigit7 (d : Byte) (s : State) : Host.Outcome State Fault Refusal :=
  completeFrame (writeRegister (digitBase + 7) d s)

/-- FRAME_DECODE_MODE: no BCD decode (10_state.md R34). -/
def execFrameDecodeMode (s : State) : Host.Outcome State Fault Refusal :=
  completeFrame (writeRegister regDecodeMode 0x00 s)

/-- FRAME_INTENSITY: brightness 0..15 (10_state.md R35). -/
def execFrameIntensity (level : BitVec 4) (s : State) : Host.Outcome State Fault Refusal :=
  completeFrame (writeRegister regIntensity (intensityData level) s)

/-- FRAME_SCAN_LIMIT: eight digits (10_state.md R36). -/
def execFrameScanLimit (s : State) : Host.Outcome State Fault Refusal :=
  completeFrame (writeRegister regScanLimit 0x07 s)

/-- FRAME_SHUTDOWN: 0 shutdown, 1 normal operation (10_state.md R37). -/
def execFrameShutdown (normal : Bool) (s : State) : Host.Outcome State Fault Refusal :=
  completeFrame (writeRegister regShutdown (bitData normal) s)

/-- FRAME_DISPLAY_TEST: 0 normal, 1 all segments on (10_state.md R38). -/
def execFrameDisplayTest (on : Bool) (s : State) : Host.Outcome State Fault Refusal :=
  completeFrame (writeRegister regDisplayTest (bitData on) s)

end Sys2Proof.Machine
end

