-- ==== Sys2Proof/Machine/Lifecycle.lean ====
section
/-! DEFINITION. Lifecycle commands (41_lifecycle.md). -/

namespace Sys2Proof.Machine

/-- The frame list of POWER_ON for digit count `n`, in its normative order (41_lifecycle.md R100,
70_reset_and_hazards.md R212). -/
def powerOnActions (n : Nat) : List (State → Progress) :=
  [writeRegister regDisplayTest 0x00,
    writeRegister regDecodeMode 0x00,
    fun s => writeRegister regIntensity (intensityData s.brightness) s,
    writeRegister regScanLimit 0x07]
  ++ clearActions n
  ++ [writeRegister regShutdown 0x01]

/-- POWER_ON (41_lifecycle.md R100 to R103). -/
def execPowerOn (s : State) : Host.Outcome State Fault Refusal :=
  completeCommand (runMultiFrame (powerOnActions s.digitCount) s)

/-- POWER_OFF (41_lifecycle.md R104, R105). -/
def execPowerOff (s : State) : Host.Outcome State Fault Refusal :=
  completeCommand (writeRegister regShutdown 0x00 s)

/-- TEST_ON (41_lifecycle.md R106). -/
def execTestOn (s : State) : Host.Outcome State Fault Refusal :=
  completeCommand (writeRegister regDisplayTest 0x01 s)

/-- TEST_OFF (41_lifecycle.md R108). -/
def execTestOff (s : State) : Host.Outcome State Fault Refusal :=
  completeCommand (writeRegister regDisplayTest 0x00 s)

end Sys2Proof.Machine
end

