-- ==== Sys2Proof/Syntax.lean ====
section
/-! DEFINITION. The instructions: the 13 commands and the 13 frames of the opcode table. -/

namespace Sys2Proof

/-- One constructor per row of the opcode table. Operands of commands are unbounded integers, as the operand rules
are (00_scope.md R13), so a meaning also says what a negative or wide value does. -/
inductive Instr where
  | powerOn
  | powerOff
  | testOn
  | testOff
  | setBrightness (level : Int)
  | setReverse (flag : Bool)
  | clear (index : Int)
  | clearAll
  | setDigit (index digit : Int) (dot : Bool)
  | setChar (index cp : Int) (dot : Bool)
  | setDot (index : Int)
  | clearDot (index : Int)
  | setMask (index : Int) (mask : Byte)
  | frameDigit0 (d : Byte)
  | frameDigit1 (d : Byte)
  | frameDigit2 (d : Byte)
  | frameDigit3 (d : Byte)
  | frameDigit4 (d : Byte)
  | frameDigit5 (d : Byte)
  | frameDigit6 (d : Byte)
  | frameDigit7 (d : Byte)
  | frameDecodeMode
  | frameIntensity (level : BitVec 4)
  | frameScanLimit
  | frameShutdown (normal : Bool)
  | frameDisplayTest (on : Bool)
deriving DecidableEq, Repr

/-- The rows of format `cmd32`: what the command port of the spec carries (30_encoding.md R73). -/
def Instr.isCommand : Instr → Bool
  | .powerOn | .powerOff | .testOn | .testOff => true
  | .setBrightness _ | .setReverse _ => true
  | .clear _ | .clearAll => true
  | .setDigit _ _ _ | .setChar _ _ _ => true
  | .setDot _ | .clearDot _ | .setMask _ _ => true
  | .frameDigit0 _ | .frameDigit1 _ | .frameDigit2 _ | .frameDigit3 _ => false
  | .frameDigit4 _ | .frameDigit5 _ | .frameDigit6 _ | .frameDigit7 _ => false
  | .frameDecodeMode | .frameIntensity _ | .frameScanLimit => false
  | .frameShutdown _ | .frameDisplayTest _ => false

end Sys2Proof
end

