-- ==== Sys2Proof/Machine/Dispatch.lean ====
section
/-! DEFINITION. One arm per constructor of Instr. -/

namespace Sys2Proof.Machine

/-- The meaning of an instruction. -/
def exec (i : Instr) (s : State) : Host.Outcome State Fault Refusal :=
  match i with
  | .powerOn => Sys2Proof.Machine.execPowerOn s
  | .powerOff => Sys2Proof.Machine.execPowerOff s
  | .testOn => Sys2Proof.Machine.execTestOn s
  | .testOff => Sys2Proof.Machine.execTestOff s
  | .setBrightness level => Sys2Proof.Machine.execSetBrightness level s
  | .setReverse flag => Sys2Proof.Machine.execSetReverse flag s
  | .clear index => Sys2Proof.Machine.execClear index s
  | .clearAll => Sys2Proof.Machine.execClearAll s
  | .setDigit index digit dot => Sys2Proof.Machine.execSetDigit index digit dot s
  | .setChar index cp dot => Sys2Proof.Machine.execSetChar index cp dot s
  | .setDot index => Sys2Proof.Machine.execSetDot index s
  | .clearDot index => Sys2Proof.Machine.execClearDot index s
  | .setMask index mask => Sys2Proof.Machine.execSetMask index mask s
  | .frameDigit0 d => Sys2Proof.Machine.execFrameDigit0 d s
  | .frameDigit1 d => Sys2Proof.Machine.execFrameDigit1 d s
  | .frameDigit2 d => Sys2Proof.Machine.execFrameDigit2 d s
  | .frameDigit3 d => Sys2Proof.Machine.execFrameDigit3 d s
  | .frameDigit4 d => Sys2Proof.Machine.execFrameDigit4 d s
  | .frameDigit5 d => Sys2Proof.Machine.execFrameDigit5 d s
  | .frameDigit6 d => Sys2Proof.Machine.execFrameDigit6 d s
  | .frameDigit7 d => Sys2Proof.Machine.execFrameDigit7 d s
  | .frameDecodeMode => Sys2Proof.Machine.execFrameDecodeMode s
  | .frameIntensity level => Sys2Proof.Machine.execFrameIntensity level s
  | .frameScanLimit => Sys2Proof.Machine.execFrameScanLimit s
  | .frameShutdown normal => Sys2Proof.Machine.execFrameShutdown normal s
  | .frameDisplayTest on => Sys2Proof.Machine.execFrameDisplayTest on s

end Sys2Proof.Machine
end

