-- ==== Sys2Proof/WellFormed.lean ====
section
/-! DEFINITION. Which instructions the port can carry: every operand fits its field (30_encoding.md R71, R72). -/

namespace Sys2Proof

/-- The index fits the 6-bit field `idx`: 0..63 (30_encoding.md R72). -/
def indexFits (index : Int) : Bool := decide (0 ≤ index) && decide (index ≤ 63)

/-- The value fits the 21-bit field `arg` (30_encoding.md R72, 00_scope.md R10). -/
def argFits (arg : Int) : Bool := decide (0 ≤ arg) && decide (arg < 2 ^ Config.charBits)

/-- Every operand fits the field that carries it. Booleans, masks and frame data fit by their types. -/
def Instr.wellFormed : Instr → Bool
  | .powerOn | .powerOff | .testOn | .testOff => true
  | .setBrightness level => argFits level
  | .setReverse _ => true
  | .clear index => indexFits index
  | .clearAll => true
  | .setDigit index digit _ => indexFits index && argFits digit
  | .setChar index cp _ => indexFits index && argFits cp
  | .setDot index => indexFits index
  | .clearDot index => indexFits index
  | .setMask index _ => indexFits index
  | .frameDigit0 _ | .frameDigit1 _ | .frameDigit2 _ | .frameDigit3 _ => true
  | .frameDigit4 _ | .frameDigit5 _ | .frameDigit6 _ | .frameDigit7 _ => true
  | .frameDecodeMode | .frameIntensity _ | .frameScanLimit => true
  | .frameShutdown _ | .frameDisplayTest _ => true

/-- The proposition form of `Instr.wellFormed`. -/
abbrev Instr.WellFormed (i : Instr) : Prop := i.wellFormed = true

end Sys2Proof
end

