-- ==== Sys2Proof/Decode.lean ====
section
/-! DEFINITION. Decoding and encoding of command words and frame words (30_encoding.md R71 to R79). -/

namespace Sys2Proof

/-- Why a word decodes to nothing. -/
inductive DecodeError where
  /-- Opcode 0x0, 0xE or 0xF (30_encoding.md R75). -/
  | reservedOpcode (w : Word)
  /-- A non-zero bit in a field the opcode does not use (30_encoding.md R76). -/
  | unusedField (w : Word)
  /-- A frame the block never emits (30_encoding.md R79). -/
  | unlistedFrame (w : FrameWord)
deriving DecidableEq, Repr

/-! ### Fields of a command word (30_encoding.md R71, R72) -/

/-- `op = w[31:28]`. -/
def opField (w : Word) : BitVec 4 := w.extractLsb' 28 4

/-- `flag = (w[27] = 1)`. -/
def flagField (w : Word) : Bool := w.getLsbD 27

/-- `idx = w[26:21]`. -/
def idxField (w : Word) : BitVec 6 := w.extractLsb' 21 6

/-- `arg = w[20:0]`. -/
def argField (w : Word) : BitVec 21 := w.extractLsb' 0 21

/-- `arg[7:0]`, the mask operand of SET_MASK. -/
def maskField (w : Word) : Byte := w.extractLsb' 0 8

/-- `index = zext(w[26:21])`, never sign-extended. -/
def indexOperand (w : Word) : Int := (idxField w).toNat

/-- `arg = zext(w[20:0])`, never sign-extended. -/
def argOperand (w : Word) : Int := (argField w).toNat

/-! ### The match and mask pairs (30_encoding.md R74) -/

/-- A row's pair: a word selects the row when `w & mask = base`. -/
structure Pattern where
  base : Word
  mask : Word
deriving DecidableEq, Repr

/-- `w & mask = match` (30_encoding.md R74). -/
def Pattern.selects (p : Pattern) (w : Word) : Bool := w &&& p.mask == p.base

def patPowerOn : Pattern := ⟨0x10000000#32, 0xFFFFFFFF#32⟩
def patPowerOff : Pattern := ⟨0x20000000#32, 0xFFFFFFFF#32⟩
def patTestOn : Pattern := ⟨0x30000000#32, 0xFFFFFFFF#32⟩
def patTestOff : Pattern := ⟨0x40000000#32, 0xFFFFFFFF#32⟩
def patSetBrightness : Pattern := ⟨0x50000000#32, 0xFFE00000#32⟩
def patSetReverse : Pattern := ⟨0x60000000#32, 0xF7FFFFFF#32⟩
def patClear : Pattern := ⟨0x70000000#32, 0xF81FFFFF#32⟩
def patClearAll : Pattern := ⟨0x80000000#32, 0xFFFFFFFF#32⟩
def patSetDigit : Pattern := ⟨0x90000000#32, 0xF0000000#32⟩
def patSetChar : Pattern := ⟨0xA0000000#32, 0xF0000000#32⟩
def patSetDot : Pattern := ⟨0xB0000000#32, 0xF81FFFFF#32⟩
def patClearDot : Pattern := ⟨0xC0000000#32, 0xF81FFFFF#32⟩
def patSetMask : Pattern := ⟨0xD0000000#32, 0xF81FFF00#32⟩

/-- The thirteen rows of the table of 30_encoding.md R74, in its order. -/
def commandPatterns : List Pattern :=
  [patPowerOn, patPowerOff, patTestOn, patTestOff, patSetBrightness, patSetReverse, patClear, patClearAll,
    patSetDigit, patSetChar, patSetDot, patClearDot, patSetMask]

/-! ### Decoding -/

/-- The row's instruction if the word has zero in every field the row does not use, else an illegal word
(30_encoding.md R76). -/
def acceptRow (p : Pattern) (w : Word) (i : Instr) : Except DecodeError Instr :=
  if p.selects w then .ok i else .error (.unusedField w)

/-- Decoding of a command word by its opcode (30_encoding.md R73 to R76). -/
def decodeCommand (w : Word) : Except DecodeError Instr :=
  match (opField w).toNat with
  | 0x1 => acceptRow patPowerOn w .powerOn
  | 0x2 => acceptRow patPowerOff w .powerOff
  | 0x3 => acceptRow patTestOn w .testOn
  | 0x4 => acceptRow patTestOff w .testOff
  | 0x5 => acceptRow patSetBrightness w (.setBrightness (argOperand w))
  | 0x6 => acceptRow patSetReverse w (.setReverse (flagField w))
  | 0x7 => acceptRow patClear w (.clear (indexOperand w))
  | 0x8 => acceptRow patClearAll w .clearAll
  | 0x9 => acceptRow patSetDigit w (.setDigit (indexOperand w) (argOperand w) (flagField w))
  | 0xA => acceptRow patSetChar w (.setChar (indexOperand w) (argOperand w) (flagField w))
  | 0xB => acceptRow patSetDot w (.setDot (indexOperand w))
  | 0xC => acceptRow patClearDot w (.clearDot (indexOperand w))
  | 0xD => acceptRow patSetMask w (.setMask (indexOperand w) (maskField w))
  | _ => .error (.reservedOpcode w)

/-- The register address of a frame word (30_encoding.md R78). -/
def frameAddr (w : FrameWord) : Byte := w.extractLsb' 8 8

/-- The data byte of a frame word (30_encoding.md R78). -/
def frameData (w : FrameWord) : Byte := w.extractLsb' 0 8

/-- A frame row that is kept only if its data byte is one the block emits (30_encoding.md R79). -/
def acceptFrame (dataOk : Bool) (w : FrameWord) (i : Instr) : Except DecodeError Instr :=
  if dataOk then .ok i else .error (.unlistedFrame w)

/-- Decoding of a frame word: exactly the frames of 30_encoding.md R79. -/
def decodeFrame (w : FrameWord) : Except DecodeError Instr :=
  let d := frameData w
  match (frameAddr w).toNat with
  | 0x01 => .ok (.frameDigit0 d)
  | 0x02 => .ok (.frameDigit1 d)
  | 0x03 => .ok (.frameDigit2 d)
  | 0x04 => .ok (.frameDigit3 d)
  | 0x05 => .ok (.frameDigit4 d)
  | 0x06 => .ok (.frameDigit5 d)
  | 0x07 => .ok (.frameDigit6 d)
  | 0x08 => .ok (.frameDigit7 d)
  | 0x09 => acceptFrame (d == 0x00#8) w .frameDecodeMode
  | 0x0A => acceptFrame (d &&& 0xF0#8 == 0x00#8) w (.frameIntensity (d.extractLsb' 0 4))
  | 0x0B => acceptFrame (d == 0x07#8) w .frameScanLimit
  | 0x0C => acceptFrame (d &&& 0xFE#8 == 0x00#8) w (.frameShutdown (d.getLsbD 0))
  | 0x0F => acceptFrame (d &&& 0xFE#8 == 0x00#8) w (.frameDisplayTest (d.getLsbD 0))
  | _ => .error (.unlistedFrame w)

/-- Decoding of one item of the input, total, rejecting by name. -/
def decode : PortWord → Except DecodeError Instr
  | .command w => decodeCommand w
  | .frame w => decodeFrame w

/-! ### Encoding -/

/-- A command word from its four fields (30_encoding.md R71). -/
def commandWord (op : BitVec 4) (flag : Bool) (idx : BitVec 6) (arg : BitVec 21) : Word :=
  op ++ BitVec.ofBool flag ++ idx ++ arg

/-- The `idx` field of an index in 0..63. -/
def idxBits (index : Int) : BitVec 6 := BitVec.ofNat 6 index.toNat

/-- The `arg` field of a value in 0..2^21-1. -/
def argBits (arg : Int) : BitVec 21 := BitVec.ofNat 21 arg.toNat

/-- A frame word, `a` in bits 15..8 and `d` in bits 7..0 (30_encoding.md R78). -/
def frameWord (a d : Byte) : FrameWord := a ++ d

/-- The word that stands for an instruction (30_encoding.md R73, R74, R79). -/
def encode : Instr → PortWord
  | .powerOn => .command (commandWord 0x1 false 0 0)
  | .powerOff => .command (commandWord 0x2 false 0 0)
  | .testOn => .command (commandWord 0x3 false 0 0)
  | .testOff => .command (commandWord 0x4 false 0 0)
  | .setBrightness level => .command (commandWord 0x5 false 0 (argBits level))
  | .setReverse flag => .command (commandWord 0x6 flag 0 0)
  | .clear index => .command (commandWord 0x7 false (idxBits index) 0)
  | .clearAll => .command (commandWord 0x8 false 0 0)
  | .setDigit index digit dot => .command (commandWord 0x9 dot (idxBits index) (argBits digit))
  | .setChar index cp dot => .command (commandWord 0xA dot (idxBits index) (argBits cp))
  | .setDot index => .command (commandWord 0xB false (idxBits index) 0)
  | .clearDot index => .command (commandWord 0xC false (idxBits index) 0)
  | .setMask index mask => .command (commandWord 0xD false (idxBits index) (mask.setWidth 21))
  | .frameDigit0 d => .frame (frameWord 0x01 d)
  | .frameDigit1 d => .frame (frameWord 0x02 d)
  | .frameDigit2 d => .frame (frameWord 0x03 d)
  | .frameDigit3 d => .frame (frameWord 0x04 d)
  | .frameDigit4 d => .frame (frameWord 0x05 d)
  | .frameDigit5 d => .frame (frameWord 0x06 d)
  | .frameDigit6 d => .frame (frameWord 0x07 d)
  | .frameDigit7 d => .frame (frameWord 0x08 d)
  | .frameDecodeMode => .frame (frameWord 0x09 0x00)
  | .frameIntensity level => .frame (frameWord 0x0A (level.setWidth 8))
  | .frameScanLimit => .frame (frameWord 0x0B 0x07)
  | .frameShutdown normal => .frame (frameWord 0x0C ((BitVec.ofBool normal).setWidth 8))
  | .frameDisplayTest on => .frame (frameWord 0x0F ((BitVec.ofBool on).setWidth 8))

/-! ### Words as the opcode table numbers them -/

/-- The input item for a row's bits: rows of format `frame16` have 16 bits, rows of format `cmd32` have 32. -/
def tablePortWord (nbits w : Nat) : PortWord :=
  if nbits ≤ 16 then .frame (BitVec.ofNat 16 w) else .command (BitVec.ofNat 32 w)

/-- The instruction the decoder reads from an instruction whose bits are `w`. -/
def decodeTableWord (nbits w : Nat) : Option Instr :=
  match decode (tablePortWord nbits w) with
  | .ok i => some i
  | .error _ => none

end Sys2Proof
end

