-- ==== Sys2Proof/Machine/Port.lean ====
section
/-! DEFINITION. Taking a word from the command port, and the refusal of a word that decodes to nothing. -/

namespace Sys2Proof.Machine

/-- The refusal of a word that decodes to nothing (30_encoding.md R75, R76; 60_exceptions.md R186). -/
def refusalOf : DecodeError → Refusal
  | .reservedOpcode w => .illegalCommand w
  | .unusedField w => .illegalCommand w
  | .unlistedFrame w => .unlistedFrame w

/-- What stands on the port. -/
inductive Arrival where
  /-- No word waits: nothing happens (60_exceptions.md R189, 70_reset_and_hazards.md R202). -/
  | idle
  /-- A legal word, and the state with the word taken from the port. -/
  | instr (i : Instr) (s : State)
  /-- An illegal word: refused before it has any effect (60_exceptions.md R186, R187). -/
  | illegal (r : Refusal)
deriving DecidableEq, Repr

/-- Accept the oldest waiting word (10_state.md R28, 00_scope.md R15). -/
def accept (s : State) : Arrival :=
  match s.port with
  | [] => .idle
  | p :: rest =>
    match decode p with
    | .ok i => .instr i (s.setPort rest)
    | .error e => .illegal (refusalOf e)

/-- A word put at the head of the port, so that it is the next one accepted. -/
def placeWord (p : PortWord) (s : State) : State := s.setPort (p :: s.port)

end Sys2Proof.Machine
end

