-- ==== Sys2Proof/Machine/Step.lean ====
section
/-! DEFINITION. One step: accept the oldest waiting word and run its instruction to its end. -/

namespace Sys2Proof.Machine

/-- One step. With no word waiting the state stays as it is. -/
def step (s : State) : Host.Outcome State Fault Refusal :=
  match accept s with
  | .idle => .next s
  | .instr i t => exec i t
  | .illegal r => .refused r

/-- The state with an instruction's word placed where step takes its next one: at the head of the port. -/
def State.withFetchWord (s : State) (nbits w : Nat) : State := placeWord (tablePortWord nbits w) s

end Sys2Proof.Machine
end

