-- ==== Sys2Proof/Machine/Assembler.lean ====
section
/-! DEFINITION. The assembler syntax, the disassembler, and the pseudo-instruction SET_STRING
(30_encoding.md R85 to R88; notes/assumptions/7.md for what the syntax leaves open, DESIGN CHOICE). -/

namespace Sys2Proof.Machine

/-- The commands SET_STRING stands for: one SET_CHAR per character, in order and without dot, and nothing for a
character whose index the port cannot carry (30_encoding.md R88). -/
def expandString (start : Int) : List Nat → List Instr
  | [] => []
  | c :: cs =>
    if indexFits start then .setChar start c false :: expandString (start + 1) cs
    else expandString (start + 1) cs

/-- One line of the assembler: a command, or the pseudo-instruction with its text as code points. -/
inductive AsmLine where
  | instr (i : Instr)
  | setString (start : Int) (text : List Nat)
deriving DecidableEq, Repr

/-- The word of a command whose operands fit their fields; otherwise an assembly error (30_encoding.md R85). Frames
are no commands. -/
def assembleInstr (i : Instr) : Option Word :=
  if i.wellFormed then
    match encode i with
    | .command w => some w
    | .frame _ => none
  else none

/-- The words of a line, or an assembly error (30_encoding.md R85, R88). -/
def assemble : AsmLine → Option (List Word)
  | .instr i => (assembleInstr i).map fun w => [w]
  | .setString start text => (expandString start text).mapM assembleInstr

/-! ### Printing (30_encoding.md R87) -/

/-- A natural number in decimal. -/
def decimalText (n : Nat) : List Char := Nat.toDigits 10 n

/-- A natural number in upper-case hexadecimal, at least `width` digits. -/
def hexText (width n : Nat) : List Char :=
  let ds := (Nat.toDigits 16 n).map Char.toUpper
  List.replicate (width - ds.length) '0' ++ ds

/-- An integer in decimal. -/
def intText (n : Int) : List Char :=
  if n < 0 then '-' :: decimalText n.natAbs else decimalText n.natAbs

/-- The suffix of a command with a dot. -/
def dotText (dot : Bool) : List Char := if dot then ", dot".toList else []

/-- A code point operand, `U+XXXX` (30_encoding.md R86). -/
def codePointText (cp : Int) : List Char := "U+".toList ++ hexText 4 cp.toNat

/-- A command in assembler syntax; frames have none. -/
def commandText : Instr → Option (List Char)
  | .powerOn => some "POWER_ON".toList
  | .powerOff => some "POWER_OFF".toList
  | .testOn => some "TEST_ON".toList
  | .testOff => some "TEST_OFF".toList
  | .setBrightness level => some ("SET_BRIGHTNESS ".toList ++ intText level)
  | .setReverse flag => some ("SET_REVERSE ".toList ++ if flag then "true".toList else "false".toList)
  | .clear index => some ("CLEAR ".toList ++ intText index)
  | .clearAll => some "CLEAR_ALL".toList
  | .setDigit index digit dot =>
    some ("SET_DIGIT ".toList ++ intText index ++ ", ".toList ++ intText digit ++ dotText dot)
  | .setChar index cp dot =>
    some ("SET_CHAR ".toList ++ intText index ++ ", ".toList ++ codePointText cp ++ dotText dot)
  | .setDot index => some ("SET_DOT ".toList ++ intText index)
  | .clearDot index => some ("CLEAR_DOT ".toList ++ intText index)
  | .setMask index mask =>
    some ("SET_MASK ".toList ++ intText index ++ ", 0x".toList ++ hexText 2 mask.toNat)
  | .frameDigit0 _ | .frameDigit1 _ | .frameDigit2 _ | .frameDigit3 _ => none
  | .frameDigit4 _ | .frameDigit5 _ | .frameDigit6 _ | .frameDigit7 _ => none
  | .frameDecodeMode | .frameIntensity _ | .frameScanLimit => none
  | .frameShutdown _ | .frameDisplayTest _ => none

/-- An illegal word, `.word 0x<w>`. -/
def illegalText (w : Word) : List Char := ".word 0x".toList ++ hexText 8 w.toNat

/-- The disassembly of a word (30_encoding.md R87). -/
def disassemble (w : Word) : List Char :=
  match decodeCommand w with
  | .ok i => (commandText i).getD (illegalText w)
  | .error _ => illegalText w

/-! ### Parsing (30_encoding.md R85, R86) -/

/-- A token of the assembler syntax. -/
inductive Token where
  | name (cs : List Char)
  | number (n : Int)
  | codePoint (cp : Nat)
  | text (cps : List Nat)
  | comma
deriving DecidableEq, Repr

/-- The value of a hexadecimal digit. -/
def hexDigit (c : Char) : Option Nat :=
  if '0' ≤ c ∧ c ≤ '9' then some (c.toNat - 0x30)
  else if 'A' ≤ c ∧ c ≤ 'F' then some (c.toNat - 0x37)
  else if 'a' ≤ c ∧ c ≤ 'f' then some (c.toNat - 0x57)
  else none

/-- A digit string in a base up to 16; no digit, or a digit outside the base, is an error. -/
def digitsValue (base : Nat) (cs : List Char) : Option Nat :=
  if cs.isEmpty then none
  else cs.foldl (fun acc c => match acc, hexDigit c with
    | some n, some d => if d < base then some (n * base + d) else none
    | _, _ => none) (some 0)

/-- A character of a mnemonic or number. -/
def wordChar (c : Char) : Bool := c.isAlphanum || c == '_'

/-- The code of the single quote. -/
def singleQuote : Nat := 0x27

/-- The code of the double quote. -/
def doubleQuote : Nat := 0x22

/-- A number or a name that ends where no word character follows. -/
def wordToken (cs : List Char) : Option Token :=
  match cs with
  | '0' :: 'x' :: ds => (digitsValue 16 ds).map fun n => .number n
  | c :: _ =>
    if c.isDigit then (digitsValue 10 cs).map fun n => .number n
    else some (.name cs)
  | [] => none

/-- The tokens of a line; `fuel` at least the line's length. -/
def tokenize : Nat → List Char → Option (List Token)
  | _, [] => some []
  | 0, _ :: _ => none
  | fuel + 1, c :: cs =>
    if c = ' ' then tokenize fuel cs
    else if c = ',' then (tokenize fuel cs).map (Token.comma :: ·)
    else if c.toNat = singleQuote then
      match cs with
      | d :: q :: rest =>
        if q.toNat = singleQuote then (tokenize fuel rest).map (Token.codePoint d.toNat :: ·) else none
      | _ => none
    else if c.toNat = doubleQuote then
      match cs.dropWhile fun d => d.toNat != doubleQuote with
      | _ :: rest =>
        (tokenize fuel rest).map (Token.text ((cs.takeWhile fun d => d.toNat != doubleQuote).map Char.toNat) :: ·)
      | [] => none
    else if c = '-' then
      match digitsValue 10 (cs.takeWhile wordChar) with
      | some n => (tokenize fuel (cs.dropWhile wordChar)).map (Token.number (-(n : Int)) :: ·)
      | none => none
    else if c = 'U' ∧ cs.head? = some '+' then
      match digitsValue 16 (cs.tail.takeWhile wordChar) with
      | some n => (tokenize fuel (cs.tail.dropWhile wordChar)).map (Token.codePoint n :: ·)
      | none => none
    else
      match wordToken ((c :: cs).takeWhile wordChar) with
      | some t => (tokenize fuel (cs.dropWhile wordChar)).map (t :: ·)
      | none => none

/-- `, dot` present or absent. -/
def parseDot : List Token → Option Bool
  | [] => some false
  | [.comma, .name d] => if d = "dot".toList then some true else none
  | _ => none

/-- A line from its mnemonic and the tokens of its operands (30_encoding.md R85). -/
def parseOperands (m : List Char) (ops : List Token) : Option AsmLine :=
  if m = "POWER_ON".toList then if ops.isEmpty then some (.instr .powerOn) else none
  else if m = "POWER_OFF".toList then if ops.isEmpty then some (.instr .powerOff) else none
  else if m = "TEST_ON".toList then if ops.isEmpty then some (.instr .testOn) else none
  else if m = "TEST_OFF".toList then if ops.isEmpty then some (.instr .testOff) else none
  else if m = "CLEAR_ALL".toList then if ops.isEmpty then some (.instr .clearAll) else none
  else if m = "SET_BRIGHTNESS".toList then
    match ops with
    | [.number level] => some (.instr (.setBrightness level))
    | _ => none
  else if m = "SET_REVERSE".toList then
    match ops with
    | [.name b] =>
      if b = "true".toList then some (.instr (.setReverse true))
      else if b = "false".toList then some (.instr (.setReverse false))
      else none
    | _ => none
  else if m = "CLEAR".toList then
    match ops with
    | [.number i] => some (.instr (.clear i))
    | _ => none
  else if m = "SET_DIGIT".toList then
    match ops with
    | .number i :: .comma :: .number d :: rest => (parseDot rest).map fun dot => .instr (.setDigit i d dot)
    | _ => none
  else if m = "SET_CHAR".toList then
    match ops with
    | .number i :: .comma :: .codePoint cp :: rest => (parseDot rest).map fun dot => .instr (.setChar i cp dot)
    | _ => none
  else if m = "SET_DOT".toList then
    match ops with
    | [.number i] => some (.instr (.setDot i))
    | _ => none
  else if m = "CLEAR_DOT".toList then
    match ops with
    | [.number i] => some (.instr (.clearDot i))
    | _ => none
  else if m = "SET_MASK".toList then
    match ops with
    | [.number i, .comma, .number mask] =>
      if 0 ≤ mask ∧ mask ≤ 255 then some (.instr (.setMask i (BitVec.ofNat 8 mask.toNat))) else none
    | _ => none
  else if m = "SET_STRING".toList then
    match ops with
    | [.number start, .comma, .text cps] => some (.setString start cps)
    | _ => none
  else none

/-- A line of the assembler, or an assembly error. -/
def parseLine (line : List Char) : Option AsmLine :=
  match tokenize line.length line with
  | some (.name m :: ops) => parseOperands m ops
  | _ => none

/-- The words a line of text assembles to, or an assembly error (30_encoding.md R85). -/
def assembleText (line : String) : Option (List Word) := (parseLine line.toList).bind assemble

end Sys2Proof.Machine
end

