-- ==== Sys2Proof/Machine/View.lean ====
section
/-! DEFINITION. What is derived from the state and is no state: the phase of the controller (10_state.md R40), the
display view (60_exceptions.md R190), and the observation ports (10_state.md R41). -/

namespace Sys2Proof.Machine

/-- The phases of the source's state machine (10_state.md R40, 41_lifecycle.md R110). -/
inductive Phase where
  | uninitialized
  | active
  | testOverlay
  | shutdown
deriving DecidableEq, Repr

/-- `configured` (10_state.md R40): raw segment mode, eight digits scanned, an intensity written. -/
abbrev configured (m : Memory) : Prop :=
  m.read regDecodeMode.toNat = some 0x00#8 ∧ m.read regScanLimit.toNat = some 0x07#8
    ∧ (m.read regIntensity.toNat).isSome

/-- `phase(shadow)` (10_state.md R40). -/
def phase (m : Memory) : Phase :=
  if ¬ configured m then .uninitialized
  else if m.read regDisplayTest.toNat = some 0x01#8 then .testOverlay
  else if m.read regDisplayTest.toNat = some 0x00#8 ∧ m.read regShutdown.toNat = some 0x01#8 then .active
  else if m.read regDisplayTest.toNat = some 0x00#8 ∧ m.read regShutdown.toNat = some 0x00#8 then .shutdown
  else .uninitialized

/-- `ALL_ON` (60_exceptions.md R190). -/
def allOn (testLightsDp : Bool) : Byte := 0x7F ||| (if testLightsDp then 0x80 else 0x00)

/-- `view(p)` for given values of the two open parameters (60_exceptions.md R190); `none` is Unknown. -/
def viewWith (testOverridesShutdown testLightsDp : Bool) (m : Memory) (p : Nat) : Option Byte :=
  if m.read regDisplayTest.toNat = some 0x01#8 then
    if m.read regShutdown.toNat = some 0x01#8 ∨ testOverridesShutdown = true then some (allOn testLightsDp)
    else if m.read regShutdown.toNat = some 0x00#8 then some 0x00#8
    else none
  else if m.read regDisplayTest.toNat = some 0x00#8 ∧ m.read regShutdown.toNat = some 0x00#8 then some 0x00#8
  else if m.read regDisplayTest.toNat = some 0x00#8 ∧ m.read regShutdown.toNat = some 0x01#8
      ∧ m.read regDecodeMode.toNat = some 0x00#8 ∧ m.read regScanLimit.toNat = some 0x07#8 then
    m.read (digitBase.toNat + p)
  else none

/-- `view(p)`, what physical position `p` in 0..7 shows (60_exceptions.md R190). -/
def view (m : Memory) (p : Nat) : Option Byte :=
  viewWith Config.testOverridesShutdown Config.testLightsDp m p

/-- The observation ports, readable between commands (10_state.md R41). -/
structure Observation where
  buf : List Byte
  brightness : BitVec 4
  reverse : Bool
  status : Status
  faultSeen : Bool
  trace : List FrameRecord
deriving DecidableEq, Repr

/-- What the host reads; reading has no side effect (92_eei_decisions.md D17). -/
def observe (s : State) : Observation :=
  { buf := s.buf, brightness := s.brightness, reverse := s.reverse, status := s.status, faultSeen := s.faultSeen,
    trace := s.trace }

end Sys2Proof.Machine
end

