-- ==== Sys2Proof/Safety.lean ====
section
/-! DEFINITION. The terms claims use: premises on the transport, frame lists, what a sent frame leaves, the frames
each instruction may emit, the invariants, and runs of several instructions. -/

namespace Sys2Proof

/-! ### Kinds of instruction -/

/-- The content commands (44_content.md R170). -/
def Instr.isContent : Instr → Bool
  | .powerOn | .powerOff | .testOn | .testOff => false
  | .setBrightness _ | .setReverse _ => false
  | .clear _ | .clearAll => true
  | .setDigit _ _ _ | .setChar _ _ _ => true
  | .setDot _ | .clearDot _ | .setMask _ _ => true
  | .frameDigit0 _ | .frameDigit1 _ | .frameDigit2 _ | .frameDigit3 _ => false
  | .frameDigit4 _ | .frameDigit5 _ | .frameDigit6 _ | .frameDigit7 _ => false
  | .frameDecodeMode | .frameIntensity _ | .frameScanLimit => false
  | .frameShutdown _ | .frameDisplayTest _ => false

/-- The configuration commands (42_configuration.md). -/
def Instr.isConfig : Instr → Bool
  | .powerOn | .powerOff | .testOn | .testOff => false
  | .setBrightness _ | .setReverse _ => true
  | .clear _ | .clearAll => false
  | .setDigit _ _ _ | .setChar _ _ _ => false
  | .setDot _ | .clearDot _ | .setMask _ _ => false
  | .frameDigit0 _ | .frameDigit1 _ | .frameDigit2 _ | .frameDigit3 _ => false
  | .frameDigit4 _ | .frameDigit5 _ | .frameDigit6 _ | .frameDigit7 _ => false
  | .frameDecodeMode | .frameIntensity _ | .frameScanLimit => false
  | .frameShutdown _ | .frameDisplayTest _ => false

/-- The index of a content command that has one (44_content.md R151). -/
def Instr.contentIndex : Instr → Option Int
  | .powerOn | .powerOff | .testOn | .testOff => none
  | .setBrightness _ | .setReverse _ => none
  | .clear index => some index
  | .clearAll => none
  | .setDigit index _ _ => some index
  | .setChar index _ _ => some index
  | .setDot index => some index
  | .clearDot index => some index
  | .setMask index _ => some index
  | .frameDigit0 _ | .frameDigit1 _ | .frameDigit2 _ | .frameDigit3 _ => none
  | .frameDigit4 _ | .frameDigit5 _ | .frameDigit6 _ | .frameDigit7 _ => none
  | .frameDecodeMode | .frameIntensity _ | .frameScanLimit => none
  | .frameShutdown _ | .frameDisplayTest _ => none

/-- The frame of a frame row, `none` for a command (30_encoding.md R79; 10_state.md R33 to R38). -/
def Instr.frameRow : Instr → Option Machine.Frame
  | .powerOn | .powerOff | .testOn | .testOff => none
  | .setBrightness _ | .setReverse _ => none
  | .clear _ | .clearAll => none
  | .setDigit _ _ _ | .setChar _ _ _ => none
  | .setDot _ | .clearDot _ | .setMask _ _ => none
  | .frameDigit0 d => some ⟨0x01, d⟩
  | .frameDigit1 d => some ⟨0x02, d⟩
  | .frameDigit2 d => some ⟨0x03, d⟩
  | .frameDigit3 d => some ⟨0x04, d⟩
  | .frameDigit4 d => some ⟨0x05, d⟩
  | .frameDigit5 d => some ⟨0x06, d⟩
  | .frameDigit6 d => some ⟨0x07, d⟩
  | .frameDigit7 d => some ⟨0x08, d⟩
  | .frameDecodeMode => some ⟨0x09, 0x00⟩
  | .frameIntensity level => some ⟨0x0A, level.setWidth 8⟩
  | .frameScanLimit => some ⟨0x0B, 0x07⟩
  | .frameShutdown normal => some ⟨0x0C, if normal then 0x01 else 0x00⟩
  | .frameDisplayTest on => some ⟨0x0F, if on then 0x01 else 0x00⟩

end Sys2Proof

namespace Sys2Proof.Machine

/-! ### Premises on configuration and transport -/

/-- The digit count is one the spec admits (00_scope.md R7). -/
abbrev State.legal (s : State) : Prop := Config.legalDigitCount s.digitCount

/-- The transport answers ok to each of the next `k` frames (20_memory.md R65). -/
abbrev State.allOk (s : State) (k : Nat) : Prop := ∀ j < k, s.outcomeAt j = .ok

/-- The next `k` frames succeed and the one after them fails. -/
abbrev State.failsAt (s : State) (k : Nat) : Prop := s.allOk k ∧ s.outcomeAt k = .fail

/-! ### Frame lists -/

/-- The clear frames of CLEAR_ALL and POWER_ON (44_content.md R157, 41_lifecycle.md R102). -/
def clearFrames (s : State) : List Frame :=
  (List.range s.digitCount).map fun i => ⟨digitReg s.digitCount s.reverse i, 0x00⟩

/-- The frames of POWER_ON, in order (41_lifecycle.md R100). -/
def powerOnFrames (s : State) : List Frame :=
  [⟨0x0F, 0x00⟩, ⟨0x09, 0x00⟩, ⟨0x0A, s.brightness.setWidth 8⟩, ⟨0x0B, 0x07⟩] ++ clearFrames s ++ [⟨0x0C, 0x01⟩]

/-- The trace entries of frames that succeeded. -/
def okRecords (fs : List Frame) : List FrameRecord := fs.map fun f => ⟨f, .ok⟩

/-- The shadow after frames that succeeded (10_state.md R30). -/
def told (fs : List Frame) (m : Memory) : Memory := fs.foldl (fun m f => m.write f.addr.toNat f.data) m

/-- The buffer with its first `k` entries cleared. -/
def clearedBuf (k : Nat) (buf : List Byte) : List Byte := List.replicate (min k buf.length) 0x00 ++ buf.drop k

/-! ### What a sent frame leaves -/

/-- The state after one frame that succeeded (20_memory.md R50). -/
def afterOk (f : Frame) (s : State) : State :=
  { s with
    csN := true
    shadow := s.shadow.write f.addr.toNat f.data
    trace := s.trace ++ [⟨f, .ok⟩]
    outcomes := s.outcomes.tail
    draws := s.draws + 1 }

/-- The state after one frame that failed, the exception taken (20_memory.md R50, 60_exceptions.md R181). -/
def afterFail (f : Frame) (s : State) : State :=
  { s with
    csN := true
    status := .busError
    faultSeen := true
    seq := 0
    shadow := []
    trace := s.trace ++ [⟨f, .fail⟩]
    outcomes := s.outcomes.tail
    draws := s.draws + 1 }

/-- The state after a frame sent on its own, by the transport's answer (20_memory.md R50). -/
def afterFrame (f : Frame) (s : State) : State :=
  match s.outcomeAt 0 with
  | .ok => afterOk f s
  | .fail => afterFail f s

/-- The state after a command that sends one frame, by the transport's answer (60_exceptions.md R180, R181). -/
def afterCommandFrame (f : Frame) (s : State) : State :=
  match s.outcomeAt 0 with
  | .ok => { afterOk f s with status := .ok }
  | .fail => afterFail f s

/-- The state after a command that placed a mask: the range guard, the store, then the frame
(44_content.md R150, R151). -/
def afterMask (index : Int) (mask : Byte) (s : State) : State :=
  if 0 ≤ index ∧ index < s.digitCount then
    afterCommandFrame ⟨digitReg s.digitCount s.reverse index.toNat, mask⟩
      { s with buf := s.buf.set index.toNat mask }
  else { s with status := .ok }

/-- The state after a multi-frame command whose frames all succeeded (10_state.md R28, 60_exceptions.md R180). -/
def afterAllOk (fs : List Frame) (s : State) : State :=
  { s with
    csN := true
    status := .ok
    seq := 0
    shadow := told fs s.shadow
    trace := s.trace ++ okRecords fs
    outcomes := s.outcomes.drop fs.length
    draws := s.draws + fs.length }

/-- The state after a multi-frame command that sent the frames `sent`, then failed at `f` (60_exceptions.md R182). -/
def afterFailing (sent : List Frame) (f : Frame) (s : State) : State :=
  { s with
    csN := true
    status := .busError
    faultSeen := true
    seq := 0
    shadow := []
    trace := s.trace ++ okRecords sent ++ [⟨f, .fail⟩]
    outcomes := s.outcomes.drop (sent.length + 1)
    draws := s.draws + (sent.length + 1) }

/-! ### Which frames are emitted, and by which instruction (30_encoding.md R79) -/

/-- The frames of the table of 30_encoding.md R79. -/
def Frame.listed (f : Frame) : Bool :=
  (decide (1 ≤ f.addr.toNat) && decide (f.addr.toNat ≤ 8))
  || (f.addr == 0x09 && f.data == 0x00)
  || (f.addr == 0x0A && decide (f.data.toNat ≤ 0x0F))
  || (f.addr == 0x0B && f.data == 0x07)
  || (f.addr == 0x0C && decide (f.data.toNat ≤ 0x01))
  || (f.addr == 0x0F && decide (f.data.toNat ≤ 0x01))

/-- A digit frame whose register is one the block reaches, `0x01 .. 0x01 + n - 1` (10_state.md R33). -/
def Frame.digitBelow (n : Nat) (f : Frame) : Bool := decide (1 ≤ f.addr.toNat) && decide (f.addr.toNat ≤ n)

/-- The frames a command may emit from state `s`, by the last column of the table of 30_encoding.md R79 (a frame row
is no command: `Instr.frameRow` gives its frame). -/
def mayEmit (i : Instr) (s : State) (f : Frame) : Bool :=
  match i with
  | .powerOn =>
    f == ⟨0x0F, 0x00⟩ || f == ⟨0x09, 0x00⟩ || f == ⟨0x0A, s.brightness.setWidth 8⟩ || f == ⟨0x0B, 0x07⟩
      || (f.digitBelow s.digitCount && f.data == 0x00) || f == ⟨0x0C, 0x01⟩
  | .powerOff => f == ⟨0x0C, 0x00⟩
  | .testOn => f == ⟨0x0F, 0x01⟩
  | .testOff => f == ⟨0x0F, 0x00⟩
  | .setBrightness level => decide (0 ≤ level ∧ level ≤ 15) && f == ⟨0x0A, BitVec.ofNat 8 level.toNat⟩
  | .setReverse _ => false
  | .clear _ | .clearAll => f.digitBelow s.digitCount && f.data == 0x00
  | .setDigit _ _ _ | .setChar _ _ _ | .setDot _ | .clearDot _ => f.digitBelow s.digitCount
  | .setMask _ mask => f.digitBelow s.digitCount && f.data == mask
  | .frameDigit0 _ | .frameDigit1 _ | .frameDigit2 _ | .frameDigit3 _ => false
  | .frameDigit4 _ | .frameDigit5 _ | .frameDigit6 _ | .frameDigit7 _ => false
  | .frameDecodeMode | .frameIntensity _ | .frameScanLimit => false
  | .frameShutdown _ | .frameDisplayTest _ => false

/-! ### Invariants -/

/-- The shadow as the trace fixes it: a successful frame sets one entry, a failed one makes every entry Unknown, and
nothing else changes it (10_state.md R30). -/
def replay (t : List FrameRecord) : Memory :=
  t.foldl (fun m r => match r.outcome with
    | .ok => m.write r.frame.addr.toNat r.frame.data
    | .fail => []) []

/-- What holds between commands, whichever instructions run: a legal digit count, the sequencer and the bus idle, the
shadow in canonical form and equal to what the trace fixes, every frame one of the table's, and `fault_seen` exactly
when some frame has failed. -/
structure State.Inv (s : State) : Prop where
  digits : s.legal
  csIdle : s.csN = true
  seqIdle : s.seq = 0
  shadowForm : s.shadow.wf
  shadowReplay : s.shadow = replay s.trace
  frames : ∀ r ∈ s.trace, r.frame.listed = true
  sticky : s.faultSeen = true ↔ ∃ r ∈ s.trace, r.outcome = .fail
  lastStatus : s.status = .busError → s.faultSeen = true

/-- A register that is Known(0x00) or Known(0x01). -/
abbrev Memory.knownBit (m : Memory) (a : Nat) : Prop := m.read a = some 0x00#8 ∨ m.read a = some 0x01#8

/-- What the commands alone keep of the controller (41_lifecycle.md R111): DECODE_MODE and SCAN_LIMIT are written
only by POWER_ON, so when either is known between commands the last POWER_ON completed and no frame failed since:
`configured` holds, and SHUTDOWN and DISPLAY_TEST are each Known(0) or Known(1). -/
abbrev State.ControllerInv (s : State) : Prop :=
  (s.shadow.read 0x09).isSome ∨ (s.shadow.read 0x0B).isSome →
    configured s.shadow ∧ s.shadow.knownBit 0x0C ∧ s.shadow.knownBit 0x0F

/-! ### Phases with the SHUTDOWN value of Test-Overlay (41_lifecycle.md R112) -/

/-- A column of the phase table: Test-Overlay is split by `shadow[0x0C]`. -/
inductive PhaseCase where
  | u
  | a
  | t1
  | t0
  | s
deriving DecidableEq, Repr

/-- The state is in a row of the phase table (41_lifecycle.md R112). -/
def State.inCase (s : State) : PhaseCase → Prop
  | .u => phase s.shadow = .uninitialized
  | .a => phase s.shadow = .active
  | .t1 => phase s.shadow = .testOverlay ∧ s.shadow.read 0x0C = some 0x01#8
  | .t0 => phase s.shadow = .testOverlay ∧ s.shadow.read 0x0C = some 0x00#8
  | .s => phase s.shadow = .shutdown

/-- The entry of the phase table for a command (41_lifecycle.md R112). -/
def nextCase : PhaseCase → Instr → PhaseCase
  | _, .powerOn => .a
  | .u, .powerOff => .u
  | .a, .powerOff => .s
  | .t1, .powerOff => .t0
  | .t0, .powerOff => .t0
  | .s, .powerOff => .s
  | .u, .testOn => .u
  | .a, .testOn => .t1
  | .t1, .testOn => .t1
  | .t0, .testOn => .t0
  | .s, .testOn => .t0
  | .u, .testOff => .u
  | .a, .testOff => .a
  | .t1, .testOff => .a
  | .t0, .testOff => .s
  | .s, .testOff => .s
  | c, _ => c

/-! ### Rows of the encoding table -/

/-- Every word a row's match and mask select decodes to the row's instruction, its operands read from the word by `f`
(30_encoding.md R74). -/
def rowDecodes (base mask : Word) (f : Word → Instr) : Prop := ∀ w : Word, w &&& mask = base → decodeCommand w = .ok (f w)

/-! ### Runs of several instructions -/

/-- Instructions one after another, as far as each answers a next state. -/
def execAll : List Instr → State → Host.Outcome State Fault Refusal
  | [], s => .next s
  | i :: is, s =>
    match exec i s with
    | .next t => execAll is t
    | .fault r => .fault r
    | .refused r => .refused r

end Sys2Proof.Machine
end

