-- ==== Sys2Proof/Certificates/Slice0/Obligations.lean ====
section
/-! DEFINITION. The statements for the provers. -/

open Sys2Proof Sys2Proof.Machine

/-! ### Encoding -/

/-- 30_encoding.md R71 to R79: every well-formed instruction, commands and frames alike, decodes from its own word.
The command encoding is the spec's decision (D2, D3, D4); frames as instructions are notes/assumptions/1.md. -/
def Obligations.DecodeOfEncode : Prop :=
  ∀ i : Instr, i.WellFormed → decode (encode i) = .ok i

/-- 30_encoding.md R74, R76, R79: a word that decodes is the encoding of what it decodes to, so each legal word has one
meaning and no bit of it is ignored. The spec decides the command encoding (D2 to D4) and derives the list of frames
(R79). -/
def Obligations.EncodeOfDecode : Prop :=
  ∀ (p : PortWord) (i : Instr), decode p = .ok i → i.WellFormed ∧ encode i = p

/-- 30_encoding.md R74: no two rows match one word, and the words that decode are the words some row matches
(the spec derives that the rows are disjoint; the encoding is its decision D3, D4). -/
def Obligations.CommandRowsPartitionLegalWords : Prop :=
  (∀ (w : Word), ∀ p ∈ commandPatterns, ∀ q ∈ commandPatterns, p.selects w → q.selects w → p = q)
  ∧ ∀ w : Word, (∃ i, decodeCommand w = .ok i) ↔ ∃ p ∈ commandPatterns, p.selects w

/-- 30_encoding.md R75: the reserved opcodes are refused, in every state (the spec's decision D22). -/
def Obligations.ReservedOpcodeRefused : Prop :=
  ∀ (s : State) (w : Word) (rest : List PortWord), s.port = .command w :: rest →
    (opField w = 0x0 ∨ opField w = 0xE ∨ opField w = 0xF) → step s = .refused (.illegalCommand w)

/-- 30_encoding.md R76: a word whose opcode names a command but which has a non-zero bit in a field the command does not
use (so that no row of R74 matches it) is refused, in every state (the spec's decision D4). -/
def Obligations.UnusedFieldRefused : Prop :=
  ∀ (s : State) (w : Word) (rest : List PortWord), s.port = .command w :: rest →
    opField w ≠ 0x0 → opField w ≠ 0xE → opField w ≠ 0xF →
    (∀ p ∈ commandPatterns, p.selects w = false) → step s = .refused (.illegalCommand w)

/-- 95_test_vectors.md V-DEC: sample words of each family, written out from 30_encoding.md R71 to R76. -/
def Obligations.SampleWordsDecode : Prop :=
  decode (.command 0x10000000#32) = .ok .powerOn
  ∧ decode (.command 0x501FFFFF#32) = .ok (.setBrightness 0x1FFFFF)
  ∧ decode (.command 0x68000000#32) = .ok (.setReverse true)
  ∧ decode (.command 0x70E00000#32) = .ok (.clear 7)
  ∧ decode (.command 0x9FFFFFFF#32) = .ok (.setDigit 63 0x1FFFFF true)
  ∧ decode (.command 0xA80000B0#32) = .ok (.setChar 0 0xB0 true)
  ∧ decode (.command 0xC7E00000#32) = .ok (.clearDot 63)
  ∧ decode (.command 0xD000005A#32) = .ok (.setMask 0 0x5A#8)
  ∧ decode (.frame 0x085A#16) = .ok (.frameDigit7 0x5A#8)
  ∧ decode (.frame 0x0A0F#16) = .ok (.frameIntensity 0xF#4)
  ∧ decode (.frame 0x0C01#16) = .ok (.frameShutdown true)

/-- 10_state.md R28, 00_scope.md R15: when the oldest waiting word decodes to an instruction, the step is exactly exec of
it at the state with that word taken from the port; with no word waiting the step changes nothing
(60_exceptions.md R189). The port is the model's own (notes/assumptions/2.md). -/
def Obligations.StepRunsTheDecodedInstruction : Prop :=
  (∀ (s : State) (p : PortWord) (rest : List PortWord) (i : Instr),
    s.port = p :: rest → decode p = .ok i → step s = exec i { s with port := rest })
  ∧ ∀ s : State, s.port = [] → step s = .next s

/-! ### Reset -/

/-- 70_reset_and_hazards.md R200: the values of every architectural and ghost field after reset, for every digit count,
and the default digit count. The values of `cs_n`, `status`, `fault_seen`, `seq`, `shadow` and `trace` are the spec's
decision D15; that the model starts at `N = 8` is the default of R7 (notes/assumptions/8.md). -/
def Obligations.ResetValues : Prop :=
  (∀ n : Nat, (State.resetWith n).buf = List.replicate n 0x00#8
    ∧ (State.resetWith n).brightness = 7
    ∧ (State.resetWith n).reverse = true
    ∧ (State.resetWith n).csN = true
    ∧ (State.resetWith n).status = .ok
    ∧ (State.resetWith n).faultSeen = false
    ∧ (State.resetWith n).seq = 0
    ∧ (∀ a : Byte, (State.resetWith n).known a = none)
    ∧ (State.resetWith n).trace = []
    ∧ phase (State.resetWith n).shadow = .uninitialized)
  ∧ State.reset = State.resetWith 8

/-- 00_scope.md R7: the configurations with `N < 1` or `N > 8` are refused, the others are built with `N` digits (the spec's
decision D5). -/
def Obligations.ConstructRefusesIllegalDigitCounts : Prop :=
  (∀ n : Nat, n < 1 ∨ n > 8 → State.construct n = none)
  ∧ ∀ n : Nat, 1 ≤ n → n ≤ 8 → ∃ s, State.construct n = some s ∧ s.digitCount = n

/-! ### The frame primitive and the exception -/

/-- 20_memory.md R51, R52, 30_encoding.md R78: a frame is the address byte then the data byte, and its sixteen bits leave
most significant first. -/
def Obligations.FrameWireForm : Prop :=
  ∀ f : Frame, f.bytes = [f.addr, f.data]
    ∧ f.word.toNat = 256 * f.addr.toNat + f.data.toNat
    ∧ f.wireBits.length = 16
    ∧ ∀ k < 16, f.wireBits[k]? = some (f.word.getLsbD (15 - k))

/-- 20_memory.md R50, 60_exceptions.md R181: what WriteRegister answers for the transport's ok and fail. Nothing of the
block but chip-select, and on failure `status`, `fault_seen` and `seq` as R181 has them, changes. The first clause speaks
of the operation `assertSelect` alone: chip-select is low only inside the primitive, which is one stage of a step, so no
value of writeRegister shows it low (the model's choice, notes/assumptions/11.md). -/
def Obligations.WriteRegisterEffect : Prop :=
  ∀ (a d : Byte) (s : State), (assertSelect s).csN = false
    ∧ (s.outcomeAt 0 = .ok → ∃ t, writeRegister a d s = .running t
        ∧ t.csN = true ∧ t.trace = s.trace ++ [⟨⟨a, d⟩, .ok⟩]
        ∧ (∀ x : Byte, t.known x = if x = a then some d else s.known x)
        ∧ t.buf = s.buf ∧ t.brightness = s.brightness ∧ t.reverse = s.reverse
        ∧ t.status = s.status ∧ t.faultSeen = s.faultSeen ∧ t.seq = s.seq)
    ∧ (s.outcomeAt 0 = .fail → ∃ t, writeRegister a d s = .raised t
        ∧ t.csN = true ∧ t.trace = s.trace ++ [⟨⟨a, d⟩, .fail⟩]
        ∧ (∀ x : Byte, t.known x = none)
        ∧ t.buf = s.buf ∧ t.brightness = s.brightness ∧ t.reverse = s.reverse
        ∧ t.status = .busError ∧ t.faultSeen = true ∧ t.seq = 0)

/-- 20_memory.md R55: repeating a successful frame leaves the shadow as it was and still appends to the trace
(which the spec derives). -/
def Obligations.RepeatedFrameIsIdempotent : Prop :=
  ∀ (a d : Byte) (s : State), s.known a = some d → s.outcomeAt 0 = .ok →
    ∃ t, writeRegister a d s = .running t ∧ (∀ x : Byte, t.known x = s.known x)
      ∧ t.trace = s.trace ++ [⟨⟨a, d⟩, .ok⟩]

/-- 60_exceptions.md R180, R181: a command that ends shows OK when no frame of it failed; otherwise the last frame of it,
and no other, failed, and the exception has been taken: status BUS_ERROR, fault_seen 1, seq 0, the shadow all
Unknown. The status output is the spec's decision D23, the shadow's reset on failure its decision D13. -/
def Obligations.StatusTellsWhetherAFrameFailed : Prop :=
  ∀ (i : Instr) (s : State), i.isCommand = true → ∃ t sent, exec i s = .next t
    ∧ ((t.status = .ok ∧ t.trace = s.trace ++ okRecords sent ∧ t.faultSeen = s.faultSeen)
      ∨ ∃ f, t.status = .busError ∧ t.trace = s.trace ++ okRecords sent ++ [⟨f, .fail⟩] ∧ t.faultSeen = true
          ∧ t.seq = 0 ∧ ∀ a : Byte, t.known a = none)

/-- 60_exceptions.md R183: after a TransportFailure every shadow entry is Unknown and the phase is Uninitialized, and it
stays so under every command but POWER_ON (the spec's decision D13). -/
def Obligations.FailureLeavesUninitialized : Prop :=
  (∀ (i : Instr) (s t : State), i.isCommand = true → exec i s = .next t → t.status = .busError →
    (∀ a : Byte, t.known a = none) ∧ phase t.shadow = .uninitialized)
  ∧ ∀ (i : Instr) (s t : State), i.isCommand = true → i ≠ .powerOn → s.legal →
    s.known 0x09 = none → s.known 0x0B = none → exec i s = .next t →
    t.known 0x09 = none ∧ t.known 0x0B = none ∧ phase t.shadow = .uninitialized

/-- 10_state.md R27: every step in which a frame fails sets `fault_seen`, no step clears it, and nothing else sets
it (the spec's decision D13). -/
def Obligations.FaultSeenIsSticky : Prop :=
  ∀ s t : State, step s = .next t → ∃ new, t.trace = s.trace ++ new
    ∧ (t.faultSeen = true ↔ s.faultSeen = true ∨ ∃ r ∈ new, r.outcome = .fail)

/-- 60_exceptions.md R180, R185: every instruction ends in a next state, whatever the state and the operands: a
command's silent cases are no faults, and TransportFailure is taken, not a stop.
That the frame rows are instructions is the model's choice (notes/assumptions/1.md). -/
def Obligations.EveryInstructionEnds : Prop :=
  ∀ (i : Instr) (s : State), ∃ t, exec i s = .next t

/-! ### Lifecycle commands -/

/-- 41_lifecycle.md R101, R102, R212: a POWER_ON whose frames all succeed sends exactly 5 + N frames, in order the four
configuration frames, the N clears and SHUTDOWN = 1, and leaves the buffer cleared (the spec derives the
count and the order from R100). -/
def Obligations.PowerOnSendsItsFrames : Prop :=
  ∀ s : State, s.legal → s.allOk (5 + s.digitCount) →
    exec .powerOn s = .next { afterAllOk (powerOnFrames s) s with buf := List.replicate s.digitCount 0x00#8 }
    ∧ (powerOnFrames s).length = 5 + s.digitCount
    ∧ (powerOnFrames s).take 4 = [⟨0x0F, 0x00⟩, ⟨0x09, 0x00⟩, ⟨0x0A, s.brightness.setWidth 8⟩, ⟨0x0B, 0x07⟩]
    ∧ (∀ k < s.digitCount, (powerOnFrames s)[4 + k]?
        = some ⟨BitVec.ofNat 8 (if s.reverse then 0x01 + s.digitCount - 1 - k else 0x01 + k), 0x00⟩)
    ∧ (powerOnFrames s)[4 + s.digitCount]? = some ⟨0x0C, 0x01⟩

/-- 41_lifecycle.md R100: the words of POWER_ON, and its frames from reset at the default digit count, when all of them
succeed. -/
def Obligations.PowerOnFromReset : Prop :=
  (∀ w : Word, decodeCommand w = .ok .powerOn ↔ w = 0x10000000#32)
  ∧ ∀ s : State, s = { State.reset with outcomes := s.outcomes, draws := s.draws } → s.allOk 13 →
    ∃ t, exec .powerOn s = .next t
      ∧ t.trace.map (fun r => r.frame.word) = [0x0F00, 0x0900, 0x0A07, 0x0B07, 0x0800, 0x0700, 0x0600, 0x0500, 0x0400,
          0x0300, 0x0200, 0x0100, 0x0C01]
      ∧ phase t.shadow = .active ∧ t.status = .ok

/-- 60_exceptions.md R182: a POWER_ON that fails at its frame `k` has sent frames `0..k`, nothing after, has cleared
`buf[0..min(k-4, N-1)]` if `k >= 4`, and nothing is undone (which the spec derives from
R181). -/
def Obligations.PowerOnStopsAtFailingFrame : Prop :=
  ∀ (s : State) (k : Nat) (f : Frame), s.failsAt k → (powerOnFrames s)[k]? = some f →
    exec .powerOn s = .next { afterFailing ((powerOnFrames s).take k) f s with
      buf := if k < 4 then s.buf else clearedBuf (min (k - 4) (s.digitCount - 1) + 1) s.buf }

/-- 41_lifecycle.md R104: POWER_OFF sends SHUTDOWN = 0 and changes nothing else of the block. -/
def Obligations.PowerOffEffect : Prop :=
  (∀ w : Word, decodeCommand w = .ok .powerOff ↔ w = 0x20000000#32)
  ∧ ∀ s : State, exec .powerOff s = .next (afterCommandFrame ⟨0x0C, 0x00⟩ s)

/-- 41_lifecycle.md R106, R108: TEST_ON sends DISPLAY_TEST = 1 and TEST_OFF DISPLAY_TEST = 0, and nothing else of the
block changes. -/
def Obligations.TestOnAndTestOffEffect : Prop :=
  (∀ w : Word, decodeCommand w = .ok .testOn ↔ w = 0x30000000#32)
  ∧ (∀ w : Word, decodeCommand w = .ok .testOff ↔ w = 0x40000000#32)
  ∧ (∀ s : State, exec .testOn s = .next (afterCommandFrame ⟨0x0F, 0x01⟩ s))
  ∧ ∀ s : State, exec .testOff s = .next (afterCommandFrame ⟨0x0F, 0x00⟩ s)

/-! ### Configuration commands -/

/-- 42_configuration.md R120, R122: SET_BRIGHTNESS stores an in-range level and then sends it, so that a failed frame
leaves the level stored (the order is the spec's decision D12); out of range it is a no-op. -/
def Obligations.SetBrightnessEffect : Prop :=
  rowDecodes 0x50000000#32 0xFFE00000#32 (fun w => .setBrightness (w.extractLsb' 0 21).toNat)
  ∧ ∀ (level : Int) (s : State), exec (.setBrightness level) s = .next
      (if 0 ≤ level ∧ level ≤ 15 then
        afterCommandFrame ⟨0x0A, BitVec.ofNat 8 level.toNat⟩ { s with brightness := BitVec.ofNat 4 level.toNat }
      else { s with status := .ok })

/-- 42_configuration.md R121: SET_BRIGHTNESS twice leaves the brightness and the INTENSITY value that it leaves once, and
sends one frame each time (which the spec derives from R120). -/
def Obligations.SetBrightnessIsIdempotent : Prop :=
  ∀ (level : Int) (s : State), 0 ≤ level → level ≤ 15 → s.allOk 2 →
    ∃ t u, exec (.setBrightness level) s = .next t ∧ exec (.setBrightness level) t = .next u
      ∧ u.brightness = t.brightness ∧ u.known 0x0A = t.known 0x0A ∧ t.known 0x0A = some (BitVec.ofNat 8 level.toNat)
      ∧ t.trace.length = s.trace.length + 1 ∧ u.trace.length = s.trace.length + 2

/-- 42_configuration.md R124, R125: SET_REVERSE stores the flag and sends nothing; buffer and controller are as
before. -/
def Obligations.SetReverseEffect : Prop :=
  (∀ (w : Word) (flag : Bool),
    decodeCommand w = .ok (.setReverse flag) ↔ w = if flag then 0x68000000#32 else 0x60000000#32)
  ∧ ∀ (flag : Bool) (s : State), exec (.setReverse flag) s = .next { s with reverse := flag, status := .ok }

/-- 42_configuration.md R124, 20_memory.md R58: after SET_REVERSE true, SET_MASK 0 writes register `0x01 + N - 1`; after
SET_REVERSE false, register `0x01` (an example of R124).
It holds whatever the transport answers. -/
def Obligations.ReverseSelectsTheRegisterOfIndexZero : Prop :=
  ∀ (s : State) (flag : Bool) (m : Byte), s.legal →
    ∃ t r, execAll [.setReverse flag, .setMask 0 m] s = .next t
      ∧ t.trace = s.trace ++ [⟨⟨BitVec.ofNat 8 (if flag then 0x01 + s.digitCount - 1 else 0x01), m⟩, r⟩]
      ∧ t.buf[0]? = some m

/-! ### Content commands -/

/-- 44_content.md R150: SET_MASK in range stores the mask as given, then sends it to the register of the physical
position; a failed frame leaves the new mask stored (the order is the spec's decision D12); out of range it is a no-op
(R151). Every content command reaches the controller through the same core. -/
def Obligations.SetMaskEffect : Prop :=
  rowDecodes 0xD0000000#32 0xF81FFF00#32 (fun w => .setMask (w.extractLsb' 21 6).toNat (w.extractLsb' 0 8))
  ∧ (∀ (s : State) (i : Nat) (mask : Byte), i < s.digitCount →
      exec (.setMask i mask) s = .next
        (afterCommandFrame ⟨BitVec.ofNat 8 (0x01 + if s.reverse then s.digitCount - 1 - i else i), mask⟩
          { s with buf := s.buf.set i mask }))
  ∧ (∀ (s : State) (index : Int) (mask : Byte), index < 0 ∨ s.digitCount ≤ index →
      exec (.setMask index mask) s = .next { s with status := .ok })
  ∧ (∀ (i : Instr) (s : State) (index : Int), i.contentIndex = some index →
      ∃ mask, exec i s = completeCommand (setMaskCore index mask s))
  ∧ ∀ s : State, exec .clearAll s
      = completeCommand (runMultiFrame ((List.range s.digitCount).map fun (k : Nat) => setMaskCore (k : Int) 0x00) s)

/-- 44_content.md R151: with an index outside `[0, N)`, every command built on SetMaskCore changes nothing but `status`
and sends no frame. -/
def Obligations.OutOfRangeIndexIsNoOp : Prop :=
  ∀ (i : Instr) (s : State) (index : Int), i.contentIndex = some index → index < 0 ∨ s.digitCount ≤ index →
    exec i s = .next { s with status := .ok }

/-- 44_content.md R154: CLEAR writes the all-segments-off mask to its index. -/
def Obligations.ClearEffect : Prop :=
  rowDecodes 0x70000000#32 0xF81FFFFF#32 (fun w => .clear (w.extractLsb' 21 6).toNat)
  ∧ ∀ (index : Int) (s : State), exec (.clear index) s = .next (afterMask index 0x00 s)

/-- 44_content.md R156, R157: a CLEAR_ALL whose frames all succeed sends exactly N frames, the k-th `(0x01 + phys(k),
0x00)`, and leaves the buffer cleared (the spec derives the order from R156). -/
def Obligations.ClearAllSendsItsFrames : Prop :=
  (∀ w : Word, decodeCommand w = .ok .clearAll ↔ w = 0x80000000#32)
  ∧ ∀ s : State, s.legal → s.allOk s.digitCount →
    exec .clearAll s = .next { afterAllOk (clearFrames s) s with buf := List.replicate s.digitCount 0x00#8 }
    ∧ (clearFrames s).length = s.digitCount
    ∧ ∀ k < s.digitCount, (clearFrames s)[k]?
        = some ⟨BitVec.ofNat 8 (0x01 + if s.reverse then s.digitCount - 1 - k else k), 0x00⟩

/-- 60_exceptions.md R182, 44_content.md R156: a CLEAR_ALL that fails at frame `k` has cleared `buf[0..k]`, and no later
frame is sent (which the spec derives). -/
def Obligations.ClearAllStopsAtFailingFrame : Prop :=
  ∀ (s : State) (k : Nat) (f : Frame), s.failsAt k → (clearFrames s)[k]? = some f →
    exec .clearAll s = .next { afterFailing ((clearFrames s).take k) f s with buf := clearedBuf (k + 1) s.buf }

/-- 44_content.md R158, R159: SET_DIGIT places the table's mask for a digit in 0..15 and the blank mask otherwise, with
bit 7 set when the dot is asked for. -/
def Obligations.SetDigitEffect : Prop :=
  rowDecodes 0x90000000#32 0xF0000000#32
    (fun w => .setDigit (w.extractLsb' 21 6).toNat (w.extractLsb' 0 21).toNat (w.getLsbD 27))
  ∧ (∀ (index : Int) (d : Fin 16) (dot : Bool) (s : State), exec (.setDigit index (d.val : Int) dot) s
      = .next (afterMask index (if dot then Config.digitLut d ||| 0x80 else Config.digitLut d) s))
  ∧ ∀ (index digit : Int) (dot : Bool) (s : State), digit < 0 ∨ 15 < digit → exec (.setDigit index digit dot) s
      = .next (afterMask index (if dot then 0x80 else 0x00) s)

/-- 44_content.md R161: SET_CHAR places the encoder's mask of its code point, with bit 7 set when the dot is asked
for. -/
def Obligations.SetCharEffect : Prop :=
  rowDecodes 0xA0000000#32 0xF0000000#32
    (fun w => .setChar (w.extractLsb' 21 6).toNat (w.extractLsb' 0 21).toNat (w.getLsbD 27))
  ∧ ∀ (index cp : Int) (dot : Bool) (s : State), exec (.setChar index cp dot) s
      = .next (afterMask index (if dot then charMask cp ||| 0x80 else charMask cp) s)

/-- 44_content.md R165, R168: SET_DOT and CLEAR_DOT place the stored mask with bit 7 set, or cleared; out of range they
are no-ops. -/
def Obligations.SetDotAndClearDotEffect : Prop :=
  rowDecodes 0xB0000000#32 0xF81FFFFF#32 (fun w => .setDot (w.extractLsb' 21 6).toNat)
  ∧ rowDecodes 0xC0000000#32 0xF81FFFFF#32 (fun w => .clearDot (w.extractLsb' 21 6).toNat)
  ∧ (∀ (s : State) (i : Nat) (b : Byte), s.buf[i]? = some b →
      exec (.setDot i) s = .next (afterMask i (b ||| 0x80) s)
      ∧ exec (.clearDot i) s = .next (afterMask i (b &&& 0x7F) s))
  ∧ ∀ (s : State) (index : Int), index < 0 ∨ s.digitCount ≤ index →
      exec (.setDot index) s = .next { s with status := .ok }
      ∧ exec (.clearDot index) s = .next { s with status := .ok }

/-- 44_content.md R169: SET_DOT then CLEAR_DOT leaves `b & 0x7F`, which is `b` only when bit 7 of `b` was clear;
CLEAR_DOT then SET_DOT leaves `b | 0x80`, bits 6..0 unchanged; whatever the transport answers, since the buffer is
written before the frame is sent. The spec derives this from R165, R168 and R141. -/
def Obligations.DotRoundTrips : Prop :=
  ∀ (s : State) (i : Nat) (b : Byte), s.buf[i]? = some b →
    (∃ t, execAll [.setDot i, .clearDot i] s = .next t ∧ t.buf[i]? = some (b &&& 0x7F))
    ∧ (b &&& 0x7F = b ↔ b.getLsbD 7 = false)
    ∧ (∃ t, execAll [.clearDot i, .setDot i] s = .next t ∧ t.buf[i]? = some (b ||| 0x80))
    ∧ ∀ k < 7, (b ||| 0x80).getLsbD k = b.getLsbD k

/-- 30_encoding.md R88, 44_content.md R163: running the commands SET_STRING stands for leaves, at every index of the
buffer, the mask of the character that falls on it, and the old mask where none does, whatever the transport answers
(the buffer is written before the frame, R152); every other index is dropped. The expansion is the spec's decision D21. -/
def Obligations.SetStringWritesItsCharacters : Prop :=
  ∀ (start : Int) (text : List Nat) (s : State), s.legal →
    ∃ t, execAll (expandString start text) s = .next t ∧ t.buf.length = s.buf.length
      ∧ ∀ j < s.digitCount, t.buf[j]? =
          if start ≤ j ∧ (j : Int) - start < text.length then
            (text[((j : Int) - start).toNat]?).map (fun c : Nat => charMask (c : Int))
          else s.buf[j]?

/-- 30_encoding.md R88: SET_STRING 0, "HI" stands for the words 0xA0000048 and 0xA0200049; the empty string for none;
and a character whose index is outside 0..63 for none, its SET_CHAR being a no-op that only sets `status` (the
spec's decision D21). -/
def Obligations.SetStringExpansion : Prop :=
  assemble (.setString 0 [0x48, 0x49]) = some [0xA0000048#32, 0xA0200049#32]
  ∧ (∀ start : Int, expandString start [] = [])
  ∧ (∀ (start : Int) (text : List Nat) (i : Instr), i ∈ expandString start text ↔
      ∃ (k c : Nat), text[k]? = some c ∧ 0 ≤ start + k ∧ start + k ≤ 63 ∧ i = .setChar (start + k) c false)
  ∧ ∀ (index : Int) (c : Nat) (s : State), s.legal → index < 0 ∨ 63 < index →
      exec (.setChar index c false) s = .next { s with status := .ok }

/-! ### Frame conditions -/

/-- 44_content.md R150, R151, 10_state.md R30: what SET_MASK, CLEAR, SET_DIGIT, SET_CHAR, SET_DOT and CLEAR_DOT leave
unchanged. The register stored to is the one `setMaskCore` computes; a failed frame makes every shadow entry
Unknown. -/
def Obligations.IndexedContentCommandFrame : Prop :=
  ∀ (i : Instr) (s t : State) (index : Int), i.contentIndex = some index → exec i s = .next t →
    t.brightness = s.brightness ∧ t.reverse = s.reverse ∧ t.port = s.port ∧ t.buf.length = s.buf.length
    ∧ (∀ j : Nat, (j : Int) ≠ index → t.buf[j]? = s.buf[j]?)
    ∧ (t.status = .ok → t.faultSeen = s.faultSeen ∧ t.seq = s.seq)
    ∧ (¬ (0 ≤ index ∧ index < s.digitCount) → t.shadow = s.shadow ∧ t.csN = s.csN ∧ t.trace = s.trace)
    ∧ (0 ≤ index → index < s.digitCount → s.outcomeAt 0 = .ok →
        ∀ a : Byte, a ≠ digitReg s.digitCount s.reverse index.toNat → t.known a = s.known a)

/-- 41_lifecycle.md R104 to R108, 42_configuration.md R120, R124: what POWER_OFF, TEST_ON, TEST_OFF, SET_BRIGHTNESS and
SET_REVERSE leave unchanged. The one register each sends to is named; a failed frame makes every shadow entry
Unknown. -/
def Obligations.SingleRegisterCommandFrame : Prop :=
  ∀ (i : Instr) (s t : State) (a : Byte),
    (i = .powerOff ∧ a = 0x0C) ∨ ((i = .testOn ∨ i = .testOff) ∧ a = 0x0F)
      ∨ ((∃ level, i = .setBrightness level) ∧ a = 0x0A) ∨ ((∃ flag, i = .setReverse flag) ∧ a = 0x0A) →
    exec i s = .next t →
    t.buf = s.buf ∧ t.port = s.port
    ∧ ((∀ level, i ≠ .setBrightness level) → t.brightness = s.brightness)
    ∧ ((∀ flag, i ≠ .setReverse flag) → t.reverse = s.reverse)
    ∧ ((∃ flag, i = .setReverse flag) → t.shadow = s.shadow ∧ t.csN = s.csN ∧ t.trace = s.trace)
    ∧ (t.status = .ok → t.faultSeen = s.faultSeen ∧ t.seq = s.seq ∧ ∀ x : Byte, x ≠ a → t.known x = s.known x)

/-- 41_lifecycle.md R100, 44_content.md R156: what POWER_ON and CLEAR_ALL leave unchanged. CLEAR_ALL sends to the digit
registers of positions below N only; POWER_ON to those and to its five named registers. -/
def Obligations.MultiFrameCommandFrame : Prop :=
  ∀ (i : Instr) (s t : State), i = .powerOn ∨ i = .clearAll → s.legal → exec i s = .next t →
    t.brightness = s.brightness ∧ t.reverse = s.reverse ∧ t.port = s.port ∧ t.buf.length = s.buf.length
    ∧ t.csN = true ∧ t.seq = 0
    ∧ (t.status = .ok → t.faultSeen = s.faultSeen
        ∧ ∀ a : Byte, a.toNat = 0 ∨ s.digitCount < a.toNat →
          (i = .powerOn → a ≠ 0x0F ∧ a ≠ 0x09 ∧ a ≠ 0x0A ∧ a ≠ 0x0B ∧ a ≠ 0x0C) → t.known a = s.known a)

/-- 10_state.md R21, R22, R23: `brightness` is written only by SET_BRIGHTNESS, `reverse` only by SET_REVERSE, `buf` only
by POWER_ON and the content commands, and its length never changes.
The frame rows, which write none of the three, are the model's choice (notes/assumptions/1.md). -/
def Obligations.BlockRegistersHaveTheirWriters : Prop :=
  ∀ (i : Instr) (s t : State), exec i s = .next t →
    ((∀ level, i ≠ .setBrightness level) → t.brightness = s.brightness)
    ∧ ((∀ flag, i ≠ .setReverse flag) → t.reverse = s.reverse)
    ∧ (i.isContent = false → i ≠ .powerOn → t.buf = s.buf)
    ∧ t.buf.length = s.buf.length
    ∧ t.port = s.port

/-! ### The frame rows -/

/-- 20_memory.md R50 at the frames of 30_encoding.md R79: each frame row sends its own frame and nothing else. That a
frame can be given to the block on its own is the model's choice (notes/assumptions/1.md). -/
def Obligations.FrameRowsSendTheirFrame : Prop :=
  ∀ (i : Instr) (f : Frame) (s : State), i.frameRow = some f →
    encode i = .frame f.word ∧ f.listed = true ∧ exec i s = .next (afterFrame f s)

/-! ### The encoder and the remap -/

/-- 43_encoder.md R130: the digit table in 0..15, the blank mask outside, negative digits included.
The table's values are free (notes/assumptions/4.md). -/
def Obligations.DigitMaskTable : Prop :=
  (∀ d : Fin 16, digitMask (d.val : Int) = Config.digitLut d)
  ∧ ∀ digit : Int, digit < 0 ∨ 15 < digit → digitMask digit = 0x00

/-- 43_encoder.md R132 to R138: the digits, the letters of both cases, the seven punctuation characters, and the blank
mask for every other code point (the code points are general knowledge, R10, notes/assumptions/10.md). -/
def Obligations.CharMaskTable : Prop :=
  (∀ d : Nat, d ≤ 9 → charMask (0x30 + d) = digitMask d)
  ∧ (∀ k : Fin 26, charMask (0x41 + k.val) = Config.letterLut k ∧ charMask (0x61 + k.val) = Config.letterLut k)
  ∧ charMask 0x2D = 0x01 ∧ charMask 0x5F = 0x08 ∧ charMask 0xB0 = 0x63 ∧ charMask 0x5B = 0x4E
  ∧ charMask 0x28 = 0x4E ∧ charMask 0x5D = 0x78 ∧ charMask 0x29 = 0x78
  ∧ ∀ cp : Int, ¬ (0x30 ≤ cp ∧ cp ≤ 0x39) → ¬ (0x41 ≤ cp ∧ cp ≤ 0x5A) → ¬ (0x61 ≤ cp ∧ cp ≤ 0x7A) →
      cp ∉ [0x2D, 0x5F, 0xB0, 0x5B, 0x28, 0x5D, 0x29] → charMask cp = 0x00

/-- 43_encoder.md R139: the decimal point is composed by OR. The last clause, that a blank mask with a dot is the dot
alone, is R140, which the spec derives from R130 and R139. -/
def Obligations.DecimalPointIsComposedByOr : Prop :=
  (∀ m : Byte, dotMux m true = m ||| 0x80 ∧ dotMux m false = m)
  ∧ (∀ (m : Byte) (dot : Bool) (k : Nat), k < 7 → (dotMux m dot).getLsbD k = m.getLsbD k)
  ∧ (∀ (m : Byte) (dot : Bool), (dotMux m dot).getLsbD 7 = (m.getLsbD 7 || dot))
  ∧ ∀ digit : Int, digit < 0 ∨ 15 < digit →
      dotMux (digitMask digit) true = 0x80 ∧ dotMux (digitMask digit) false = 0x00

/-- 43_encoder.md R141: the read-modify-write operators, and when one undoes the other (which the spec derives). -/
def Obligations.DotOperatorLaws : Prop :=
  ∀ m : Byte, dotSet m = m ||| 0x80 ∧ dotClear m = m &&& 0x7F
    ∧ (dotClear (dotSet m) = m ↔ m.getLsbD 7 = false)
    ∧ dotSet (dotClear m) = m ||| 0x80
    ∧ ∀ k < 7, (dotSet m).getLsbD k = m.getLsbD k ∧ (dotClear m).getLsbD k = m.getLsbD k

/-- 43_encoder.md R131: for every digit table with the named property DIGIT_LUT_DP_CLEAR, no digit's mask lights the
decimal point.
The property is a premise, not a fact of the model. -/
def Obligations.DigitMasksHaveNoDotUnderDpClear : Prop :=
  ∀ lut : Fin 16 → Byte, Config.digitLutDpClear lut → ∀ digit : Int, (digitMaskWith lut digit).getLsbD 7 = false

/-- 30_encoding.md R82, R83: the segments the source's masks light. The mask of the degree sign wins over the source's
prose (90_conflicts.md C1). The layout rests on an inference of the spec's (R84, notes/assumptions/6.md). -/
def Obligations.SourceMasksLightTheirSegments : Prop :=
  (∀ g, lights 0x01 g = true ↔ g = .middle)
  ∧ (∀ g, lights 0x08 g = true ↔ g = .bottom)
  ∧ (∀ g, lights 0x63 g = true ↔ g = .top ∨ g = .topRight ∨ g = .topLeft ∨ g = .middle)
  ∧ (∀ g, lights 0x4E g = true ↔ g = .top ∨ g = .bottom ∨ g = .bottomLeft ∨ g = .topLeft)
  ∧ (∀ g, lights 0x78 g = true ↔ g = .top ∨ g = .topRight ∨ g = .bottomRight ∨ g = .bottom)
  ∧ (∀ g, lights 0x00 g = false)
  ∧ ∀ g, lights 0x80 g = true ↔ g = .decimalPoint

/-- 20_memory.md R59: the physical position is in range, its register is a digit register, and the remap is a bijection
for both orientations and an involution when reversed (which the spec derives from R58). -/
def Obligations.RemapIsABijection : Prop :=
  ∀ n : Nat, 1 ≤ n → n ≤ 8 →
    (∀ (r : Bool) (i : Nat), i < n → phys n r i < n
      ∧ 0x01 ≤ (digitReg n r i).toNat ∧ (digitReg n r i).toNat ≤ 0x08)
    ∧ (∀ (r : Bool) (p : Nat), p < n → ∃ i, (i < n ∧ phys n r i = p) ∧ ∀ j, j < n ∧ phys n r j = p → j = i)
    ∧ ∀ i < n, phys n true (phys n true i) = i

/-! ### Whole-machine rules -/

/-- 70_reset_and_hazards.md R200: reset meets the invariant at every legal digit count.
The values of the ghost state are the spec's decision D15. -/
def Obligations.ResetMeetsTheInvariant : Prop :=
  State.reset.Inv ∧ ∀ n : Nat, Config.legalDigitCount n → (State.resetWith n).Inv

/-- Every step keeps the invariant, from every state that meets it: the digit count, the idle chip-select (10_state.md
R25) and sequencer (R28), the shadow's canonical form and its being what the trace fixes (R30), the listed frames
(30_encoding.md R79), and `fault_seen` (R27).
That the transport's answers, the port and the frame rows belong to the machine is the model's choice
(notes/assumptions/1.md to 3.md); the shadow is the spec's decision D13. -/
def Obligations.StepKeepsTheInvariant : Prop :=
  ∀ s t : State, s.Inv → step s = .next t → t.Inv

/-- 41_lifecycle.md R111: between commands, if the phase is not Uninitialized, SHUTDOWN and DISPLAY_TEST are each Known(0)
or Known(1); it holds at reset and every command keeps it (which the spec derives). -/
def Obligations.CommandsKeepTheControllerInvariant : Prop :=
  (∀ n : Nat, (State.resetWith n).ControllerInv)
  ∧ (∀ (i : Instr) (s t : State), i.isCommand = true → s.legal → s.ControllerInv → exec i s = .next t → t.ControllerInv)
  ∧ ∀ s : State, s.ControllerInv → phase s.shadow ≠ .uninitialized → s.shadow.knownBit 0x0C ∧ s.shadow.knownBit 0x0F

/-- 41_lifecycle.md R112: the phase table, for every command whose frames all succeed, and Uninitialized after a command
ended by TransportFailure. The premise ControllerInv rules out controller states no run of commands reaches. The spec
derives the table. -/
def Obligations.PhaseTransitions : Prop :=
  ∀ (i : Instr) (s t : State) (c : PhaseCase), i.isCommand = true → s.legal → s.ControllerInv → s.inCase c →
    exec i s = .next t →
    (t.status = .ok → t.inCase (nextCase c i)) ∧ (t.status = .busError → t.inCase .u)

/-- 30_encoding.md R79, 10_state.md R32, R33, R39: every frame a command starts is in the table, from the command the
table names; so NOOP and the unnamed addresses are never written, and no digit register at or above `0x01 + N` (which the
spec derives from the commands' pseudocode). -/
def Obligations.EmittedFramesAreListed : Prop :=
  ∀ (i : Instr) (s t : State), i.isCommand = true → s.legal → exec i s = .next t →
    ∃ new, t.trace = s.trace ++ new
      ∧ ∀ r ∈ new, mayEmit i s r.frame = true ∧ r.frame.listed = true ∧ r.frame.addr ≠ 0x00

/-- 20_memory.md R60, 10_state.md R28, R31: a step that goes on takes the oldest waiting word, only adds to the trace, and
adds nothing when no word waits.
The port is the model's own (notes/assumptions/2.md); the one total order is derived by the spec. -/
def Obligations.WordsAreTakenInOrderAndTheTraceOnlyGrows : Prop :=
  ∀ s t : State, step s = .next t →
    t.port = s.port.tail ∧ (∃ new, t.trace = s.trace ++ new) ∧ (s.port = [] → t = s)

/-- 10_state.md R20, R30: the ghost state is no storage of the block: changing shadow and trace changes neither what an
instruction leaves in the block's registers nor the frames it sends. -/
def Obligations.GhostStateDoesNotInfluenceTheBlock : Prop :=
  ∀ (i : Instr) (s t : State) (m : Memory) (tr : List FrameRecord), exec i s = .next t →
    ∃ u, exec i { s with shadow := m, trace := tr } = .next u
      ∧ u.buf = t.buf ∧ u.brightness = t.brightness ∧ u.reverse = t.reverse ∧ u.csN = t.csN ∧ u.status = t.status
      ∧ u.faultSeen = t.faultSeen ∧ u.seq = t.seq ∧ u.port = t.port ∧ u.outcomes = t.outcomes ∧ u.draws = t.draws
      ∧ ∃ new, t.trace = s.trace ++ new ∧ u.trace = tr ++ new

/-! ### The display view -/

/-- 41_lifecycle.md R105, R107, 70_reset_and_hazards.md R210: in Test-Overlay and in Shutdown a content or configuration
command whose frames succeed changes no position of the display view.
The view is the spec's decision D20. -/
def Obligations.ContentIsHiddenUnlessActive : Prop :=
  ∀ (i : Instr) (s t : State) (p : Nat), i.isContent = true ∨ i.isConfig = true → s.legal →
    phase s.shadow = .testOverlay ∨ phase s.shadow = .shutdown → exec i s = .next t → t.status = .ok → p < 8 →
    view t.shadow p = view s.shadow p

/-- 60_exceptions.md R190, 70_reset_and_hazards.md R206: after a POWER_ON whose frames succeed the positions below N are
blank and the positions N..7 show whatever their registers held.
The view is the spec's decision D20; the spec derives R206. -/
def Obligations.ViewAfterPowerOn : Prop :=
  ∀ s : State, s.legal → s.allOk (5 + s.digitCount) →
    ∃ t, exec .powerOn s = .next t ∧ phase t.shadow = .active
      ∧ (∀ p < s.digitCount, view t.shadow p = some 0x00#8)
      ∧ ∀ p, s.digitCount ≤ p → p < 8 → view t.shadow p = s.shadow.read (0x01 + p)

/-- 70_reset_and_hazards.md R206: no command makes a digit register at or above `0x01 + N` known, so positions N..7 stay
Unknown from reset on.
The spec derives this. -/
def Obligations.PositionsAboveNAreNeverWritten : Prop :=
  ∀ (i : Instr) (s t : State) (p : Nat), i.isCommand = true → s.legal → exec i s = .next t →
    s.digitCount ≤ p → p < 8 → s.shadow.read (0x01 + p) = none → t.shadow.read (0x01 + p) = none

/-- 44_content.md R150, 60_exceptions.md R190: in phase Active, the mask a content command places with a successful frame
is what its physical position shows.
The view is the spec's decision D20. -/
def Obligations.PlacedMaskIsShownWhenActive : Prop :=
  ∀ (s : State) (i : Nat) (m : Byte), s.legal → i < s.digitCount → phase s.shadow = .active → s.outcomeAt 0 = .ok →
    ∃ t, exec (.setMask i m) s = .next t ∧ view t.shadow (phys s.digitCount s.reverse i) = some m

/-! ### The assembler -/

/-- 30_encoding.md R85, R87: assembling what a word decodes to gives the word back.
The syntax is the spec's decision D24 (notes/assumptions/7.md for what it leaves open). -/
def Obligations.AssemblingADecodedWord : Prop :=
  ∀ (w : Word) (i : Instr), decodeCommand w = .ok i → assemble (.instr i) = some [w]
end

