-- ==== Sys2Proof/Laws/Decode.lean ====
section
/-! SUPPORT. The bits and fields of a word put together from fields, and what a row's pattern asks of the fields. -/

namespace Sys2Proof

/-- Bit `k` of a word put together from fields (30_encoding.md R71). -/
theorem getLsbD_commandWord (op : BitVec 4) (f : Bool) (i : BitVec 6) (a : BitVec 21) (k : Nat) :
    (commandWord op f i a).getLsbD k
      = if k < 21 then a.getLsbD k
        else if k - 21 < 6 then i.getLsbD (k - 21)
        else if k - 21 - 6 < 1 then f
        else op.getLsbD (k - 21 - 6 - 1) := by
  have h : (commandWord op f i a).getLsbD k = (op ++ BitVec.ofBool f ++ i ++ a).getLsbD k := rfl
  rw [h, BitVec.getLsbD_append, BitVec.getLsbD_append, BitVec.getLsbD_append, BitVec.getLsbD_ofBool]
  split
  · rfl
  · split
    · rfl
    · split
      · simp [show k - 21 - 6 = 0 by omega]
      · rfl

theorem opField_commandWord (op : BitVec 4) (f : Bool) (i : BitVec 6) (a : BitVec 21) :
    opField (commandWord op f i a) = op := by
  apply BitVec.eq_of_getLsbD_eq
  intro k hk
  rw [opField, BitVec.getLsbD_extractLsb', getLsbD_commandWord]
  simp only [hk, decide_true, Bool.true_and]
  rw [if_neg (by omega), if_neg (by omega), if_neg (by omega)]
  congr 1; omega

theorem flagField_commandWord (op : BitVec 4) (f : Bool) (i : BitVec 6) (a : BitVec 21) :
    flagField (commandWord op f i a) = f := by
  rw [flagField, getLsbD_commandWord]; rfl

theorem idxField_commandWord (op : BitVec 4) (f : Bool) (i : BitVec 6) (a : BitVec 21) :
    idxField (commandWord op f i a) = i := by
  apply BitVec.eq_of_getLsbD_eq
  intro k hk
  rw [idxField, BitVec.getLsbD_extractLsb', getLsbD_commandWord]
  simp only [hk, decide_true, Bool.true_and]
  rw [if_neg (by omega), if_pos (by omega)]
  congr 1; omega

theorem argField_commandWord (op : BitVec 4) (f : Bool) (i : BitVec 6) (a : BitVec 21) :
    argField (commandWord op f i a) = a := by
  apply BitVec.eq_of_getLsbD_eq
  intro k hk
  rw [argField, BitVec.getLsbD_extractLsb', getLsbD_commandWord]
  simp only [hk, decide_true, Bool.true_and, Nat.zero_add, ite_true]

theorem maskField_commandWord (op : BitVec 4) (f : Bool) (i : BitVec 6) (a : BitVec 21) :
    maskField (commandWord op f i a) = a.setWidth 8 := by
  apply BitVec.eq_of_getLsbD_eq
  intro k hk
  rw [maskField, BitVec.getLsbD_extractLsb', getLsbD_commandWord, BitVec.getLsbD_setWidth]
  simp only [hk, decide_true, Bool.true_and, Nat.zero_add]
  rw [if_pos (by omega)]

/-- A word is put together from its own fields. -/
theorem commandWord_fields (w : Word) : commandWord (opField w) (flagField w) (idxField w) (argField w) = w := by
  apply BitVec.eq_of_getLsbD_eq
  intro k hk
  rw [getLsbD_commandWord, argField, idxField, flagField, opField, BitVec.getLsbD_extractLsb',
    BitVec.getLsbD_extractLsb', BitVec.getLsbD_extractLsb']
  split
  · simp [*]
  · split
    · simp only [decide_true, Bool.true_and, *]; congr 1; omega
    · split
      · congr 1; omega
      · rw [decide_eq_true (by omega), Bool.true_and]; congr 1; omega

/-- Two words are equal exactly when their fields are. -/
theorem commandWord_inj {op op' : BitVec 4} {f f' : Bool} {i i' : BitVec 6} {a a' : BitVec 21} :
    commandWord op f i a = commandWord op' f' i' a' ↔ op = op' ∧ f = f' ∧ i = i' ∧ a = a' := by
  refine ⟨fun h => ⟨?_, ?_, ?_, ?_⟩, fun ⟨h1, h2, h3, h4⟩ => by rw [h1, h2, h3, h4]⟩
  · simpa only [opField_commandWord] using congrArg opField h
  · simpa only [flagField_commandWord] using congrArg flagField h
  · simpa only [idxField_commandWord] using congrArg idxField h
  · simpa only [argField_commandWord] using congrArg argField h

/-- Masking a word masks its fields. -/
theorem commandWord_and (op op' : BitVec 4) (f f' : Bool) (i i' : BitVec 6) (a a' : BitVec 21) :
    commandWord op f i a &&& commandWord op' f' i' a' = commandWord (op &&& op') (f && f') (i &&& i') (a &&& a') := by
  apply BitVec.eq_of_getLsbD_eq
  intro k _
  simp only [BitVec.getLsbD_and, getLsbD_commandWord]
  split
  · rfl
  · split
    · rfl
    · split <;> rfl

/-- A pattern given by the fields of its two words. -/
theorem selects_commandWord (p : Pattern) (op op' op'' : BitVec 4) (f f' f'' : Bool) (i i' i'' : BitVec 6)
    (a a' a'' : BitVec 21) (hm : p.mask = commandWord op' f' i' a') (hb : p.base = commandWord op'' f'' i'' a'') :
    p.selects (commandWord op f i a) = true
      ↔ op &&& op' = op'' ∧ (f && f') = f'' ∧ i &&& i' = i'' ∧ a &&& a' = a'' := by
  rw [Pattern.selects, hm, hb, commandWord_and, beq_iff_eq, commandWord_inj]

/-- A pattern asks its question of each field of a word. -/
theorem selects_fields (p : Pattern) (op' op'' : BitVec 4) (f' f'' : Bool) (i' i'' : BitVec 6) (a' a'' : BitVec 21)
    (hm : p.mask = commandWord op' f' i' a') (hb : p.base = commandWord op'' f'' i'' a'') (w : Word) :
    p.selects w = true
      ↔ opField w &&& op' = op'' ∧ (flagField w && f') = f'' ∧ idxField w &&& i' = i'' ∧ argField w &&& a' = a'' := by
  conv_lhs => rw [← commandWord_fields w]
  exact selects_commandWord p _ _ _ _ _ _ _ _ _ _ _ _ hm hb

theorem acceptRow_ok {p : Pattern} {w : Word} {i j : Instr} :
    acceptRow p w i = .ok j ↔ p.selects w = true ∧ i = j := by
  unfold acceptRow
  split <;> simp_all

/-- The two bytes of a frame word put together from them. -/
theorem frameFields_frameWord (a d : Byte) : frameAddr (frameWord a d) = a ∧ frameData (frameWord a d) = d := by
  constructor
  · apply BitVec.eq_of_getLsbD_eq
    intro k hk
    simp only [frameAddr, frameWord, BitVec.getLsbD_extractLsb', BitVec.getLsbD_append, hk, decide_true, Bool.true_and]
    rw [if_neg (by omega)]
    congr 1; omega
  · apply BitVec.eq_of_getLsbD_eq
    intro k hk
    simp only [frameData, frameWord, BitVec.getLsbD_extractLsb', BitVec.getLsbD_append, hk, decide_true, Bool.true_and,
      Nat.zero_add, ite_true]

end Sys2Proof
end

