-- ==== Sys2Proof/Laws/Encoder.lean ====
section
/-! SUPPORT. One lemma per case of the encoder's functions. -/

namespace Sys2Proof.Machine

theorem digitMaskWith_inRange (lut : Fin 16 → Byte) (d : Fin 16) : digitMaskWith lut (d.val : Int) = lut d := by
  have h : (0 : Int) ≤ d.val ∧ (d.val : Int) ≤ 15 := by omega
  rw [digitMaskWith, dif_pos h]
  rfl

theorem digitMaskWith_outOfRange (lut : Fin 16 → Byte) {digit : Int} (h : ¬ (0 ≤ digit ∧ digit ≤ 15)) :
    digitMaskWith lut digit = 0x00 := dif_neg h

theorem letterMaskWith_inRange (lut : Fin 26 → Byte) (k : Fin 26) : letterMaskWith lut (k.val : Int) = lut k := by
  have h : (0 : Int) ≤ k.val ∧ (k.val : Int) ≤ 25 := by omega
  rw [letterMaskWith, dif_pos h]
  rfl

@[simp] theorem dotMux_true (m : Byte) : dotMux m true = m ||| 0x80 := rfl

@[simp] theorem dotMux_false (m : Byte) : dotMux m false = m := rfl

/-- OR with 0x80 sets bit 7 and leaves the others. -/
theorem getLsbD_dotSet (m : Byte) (k : Nat) : (dotSet m).getLsbD k = (m.getLsbD k || decide (k = 7)) := by
  by_cases hk : k < 8
  · rw [dotSet, BitVec.getLsbD_or]
    interval_cases k <;> simp
  · have h : ∀ b : Byte, b.getLsbD k = false := fun b => BitVec.getLsbD_of_ge b k (by omega)
    rw [h, h]
    simp
    omega

/-- AND with 0x7F clears bit 7 and leaves the others. -/
theorem getLsbD_dotClear (m : Byte) (k : Nat) : (dotClear m).getLsbD k = (m.getLsbD k && !decide (k = 7)) := by
  by_cases hk : k < 8
  · rw [dotClear, BitVec.getLsbD_and]
    interval_cases k <;> simp
  · have h : ∀ b : Byte, b.getLsbD k = false := fun b => BitVec.getLsbD_of_ge b k (by omega)
    rw [h, h]
    simp

end Sys2Proof.Machine
end

