-- ==== Sys2Proof/Laws/Memory.lean ====
section
/-! SUPPORT. Laws of the controller shadow: a read after a write, and the canonical form. -/

namespace Sys2Proof.Machine

theorem Memory.read_unknown (a : Nat) : Memory.unknown.read a = none := rfl

theorem Memory.read_write_same (m : Memory) (a : Nat) (d : Byte) : (m.write a d).read a = some d := by
  induction m with
  | nil => simp [Memory.write, Memory.read]
  | cons c m ih =>
    simp only [Memory.write]
    split
    · simp [Memory.read]
    · split
      · simp [Memory.read]
      · simp [Memory.read, *]

theorem Memory.read_write_other (m : Memory) {a b : Nat} (d : Byte) (h : b ≠ a) :
    (m.write a d).read b = m.read b := by
  induction m with
  | nil => simp [Memory.write, Memory.read, h]
  | cons c m ih =>
    simp only [Memory.write]
    split
    · simp [Memory.read, h]
    · split
      · rename_i h2
        simp [Memory.read, ← h2, h]
      · simp [Memory.read, ih]

theorem Memory.read_write (m : Memory) (a b : Nat) (d : Byte) :
    (m.write a d).read b = if b = a then some d else m.read b := by
  by_cases h : b = a
  · subst h; simp [Memory.read_write_same]
  · simp [h, Memory.read_write_other m d h]

/-- A written memory lists the new cell and old cells only. -/
theorem Memory.mem_write {m : Memory} {a : Nat} {d : Byte} {c : Host.Cell} (h : c ∈ m.write a d) :
    c = (a, d) ∨ c ∈ m := by
  induction m with
  | nil => exact .inl (List.mem_singleton.mp h)
  | cons x m ih =>
    simp only [Memory.write] at h
    split at h
    · simpa using h
    · split at h
      · rcases List.mem_cons.mp h with h | h
        · exact .inl h
        · exact .inr (List.mem_cons_of_mem _ h)
      · rcases List.mem_cons.mp h with h | h
        · exact .inr (h ▸ List.mem_cons_self ..)
        · rcases ih h with h | h
          · exact .inl h
          · exact .inr (List.mem_cons_of_mem _ h)

theorem Memory.wf_unknown : Memory.unknown.wf := by decide

theorem Memory.wf_write {m : Memory} {a : Nat} (d : Byte) (ha : a < 256) (hm : m.wf) : (m.write a d).wf := by
  refine ⟨?_, fun c hc => ?_⟩
  · obtain ⟨hp, -⟩ := hm
    induction m with
    | nil => simp [Memory.write]
    | cons x m ih =>
      obtain ⟨hx, hp⟩ := List.pairwise_cons.mp hp
      simp only [Memory.write]
      split
      · rename_i hlt
        refine List.pairwise_cons.mpr ⟨fun c hc => ?_, List.pairwise_cons.mpr ⟨hx, hp⟩⟩
        rcases List.mem_cons.mp hc with rfl | hc
        · exact hlt
        · exact Nat.lt_trans hlt (hx c hc)
      · split
        · rename_i heq
          exact List.pairwise_cons.mpr ⟨fun c hc => heq ▸ hx c hc, hp⟩
        · refine List.pairwise_cons.mpr ⟨fun c hc => ?_, ih hp⟩
          rcases Memory.mem_write hc with rfl | hc
          · show x.1 < a; omega
          · exact hx c hc
  · rcases Memory.mem_write hc with rfl | hc
    · exact ha
    · exact hm.2 c hc

theorem State.reset_shadow_wf : State.reset.shadow.wf := by decide

end Sys2Proof.Machine
end

