-- ==== Sys2Proof/Laws/State.lean ====
section
/-! SUPPORT. One lemma per field per setter of State, and the reset values. -/

namespace Sys2Proof.Machine

@[simp] theorem State.setBuf_buf (s : State) (v : List Byte) : (s.setBuf v).buf = v := rfl
@[simp] theorem State.setBuf_brightness (s : State) (v : List Byte) : (s.setBuf v).brightness = s.brightness := rfl
@[simp] theorem State.setBuf_reverse (s : State) (v : List Byte) : (s.setBuf v).reverse = s.reverse := rfl
@[simp] theorem State.setBuf_csN (s : State) (v : List Byte) : (s.setBuf v).csN = s.csN := rfl
@[simp] theorem State.setBuf_status (s : State) (v : List Byte) : (s.setBuf v).status = s.status := rfl
@[simp] theorem State.setBuf_faultSeen (s : State) (v : List Byte) : (s.setBuf v).faultSeen = s.faultSeen := rfl
@[simp] theorem State.setBuf_seq (s : State) (v : List Byte) : (s.setBuf v).seq = s.seq := rfl
@[simp] theorem State.setBuf_shadow (s : State) (v : List Byte) : (s.setBuf v).shadow = s.shadow := rfl
@[simp] theorem State.setBuf_trace (s : State) (v : List Byte) : (s.setBuf v).trace = s.trace := rfl
@[simp] theorem State.setBuf_port (s : State) (v : List Byte) : (s.setBuf v).port = s.port := rfl
@[simp] theorem State.setBuf_outcomes (s : State) (v : List Byte) : (s.setBuf v).outcomes = s.outcomes := rfl
@[simp] theorem State.setBuf_draws (s : State) (v : List Byte) : (s.setBuf v).draws = s.draws := rfl

@[simp] theorem State.setBrightness_buf (s : State) (v : BitVec 4) : (s.setBrightness v).buf = s.buf := rfl
@[simp] theorem State.setBrightness_brightness (s : State) (v : BitVec 4) : (s.setBrightness v).brightness = v := rfl
@[simp] theorem State.setBrightness_reverse (s : State) (v : BitVec 4) : (s.setBrightness v).reverse = s.reverse := rfl
@[simp] theorem State.setBrightness_csN (s : State) (v : BitVec 4) : (s.setBrightness v).csN = s.csN := rfl
@[simp] theorem State.setBrightness_status (s : State) (v : BitVec 4) : (s.setBrightness v).status = s.status := rfl
@[simp] theorem State.setBrightness_faultSeen (s : State) (v : BitVec 4) : (s.setBrightness v).faultSeen = s.faultSeen := rfl
@[simp] theorem State.setBrightness_seq (s : State) (v : BitVec 4) : (s.setBrightness v).seq = s.seq := rfl
@[simp] theorem State.setBrightness_shadow (s : State) (v : BitVec 4) : (s.setBrightness v).shadow = s.shadow := rfl
@[simp] theorem State.setBrightness_trace (s : State) (v : BitVec 4) : (s.setBrightness v).trace = s.trace := rfl
@[simp] theorem State.setBrightness_port (s : State) (v : BitVec 4) : (s.setBrightness v).port = s.port := rfl
@[simp] theorem State.setBrightness_outcomes (s : State) (v : BitVec 4) : (s.setBrightness v).outcomes = s.outcomes := rfl
@[simp] theorem State.setBrightness_draws (s : State) (v : BitVec 4) : (s.setBrightness v).draws = s.draws := rfl

@[simp] theorem State.setReverse_buf (s : State) (v : Bool) : (s.setReverse v).buf = s.buf := rfl
@[simp] theorem State.setReverse_brightness (s : State) (v : Bool) : (s.setReverse v).brightness = s.brightness := rfl
@[simp] theorem State.setReverse_reverse (s : State) (v : Bool) : (s.setReverse v).reverse = v := rfl
@[simp] theorem State.setReverse_csN (s : State) (v : Bool) : (s.setReverse v).csN = s.csN := rfl
@[simp] theorem State.setReverse_status (s : State) (v : Bool) : (s.setReverse v).status = s.status := rfl
@[simp] theorem State.setReverse_faultSeen (s : State) (v : Bool) : (s.setReverse v).faultSeen = s.faultSeen := rfl
@[simp] theorem State.setReverse_seq (s : State) (v : Bool) : (s.setReverse v).seq = s.seq := rfl
@[simp] theorem State.setReverse_shadow (s : State) (v : Bool) : (s.setReverse v).shadow = s.shadow := rfl
@[simp] theorem State.setReverse_trace (s : State) (v : Bool) : (s.setReverse v).trace = s.trace := rfl
@[simp] theorem State.setReverse_port (s : State) (v : Bool) : (s.setReverse v).port = s.port := rfl
@[simp] theorem State.setReverse_outcomes (s : State) (v : Bool) : (s.setReverse v).outcomes = s.outcomes := rfl
@[simp] theorem State.setReverse_draws (s : State) (v : Bool) : (s.setReverse v).draws = s.draws := rfl

@[simp] theorem State.setCsN_buf (s : State) (v : Bool) : (s.setCsN v).buf = s.buf := rfl
@[simp] theorem State.setCsN_brightness (s : State) (v : Bool) : (s.setCsN v).brightness = s.brightness := rfl
@[simp] theorem State.setCsN_reverse (s : State) (v : Bool) : (s.setCsN v).reverse = s.reverse := rfl
@[simp] theorem State.setCsN_csN (s : State) (v : Bool) : (s.setCsN v).csN = v := rfl
@[simp] theorem State.setCsN_status (s : State) (v : Bool) : (s.setCsN v).status = s.status := rfl
@[simp] theorem State.setCsN_faultSeen (s : State) (v : Bool) : (s.setCsN v).faultSeen = s.faultSeen := rfl
@[simp] theorem State.setCsN_seq (s : State) (v : Bool) : (s.setCsN v).seq = s.seq := rfl
@[simp] theorem State.setCsN_shadow (s : State) (v : Bool) : (s.setCsN v).shadow = s.shadow := rfl
@[simp] theorem State.setCsN_trace (s : State) (v : Bool) : (s.setCsN v).trace = s.trace := rfl
@[simp] theorem State.setCsN_port (s : State) (v : Bool) : (s.setCsN v).port = s.port := rfl
@[simp] theorem State.setCsN_outcomes (s : State) (v : Bool) : (s.setCsN v).outcomes = s.outcomes := rfl
@[simp] theorem State.setCsN_draws (s : State) (v : Bool) : (s.setCsN v).draws = s.draws := rfl

@[simp] theorem State.setStatus_buf (s : State) (v : Status) : (s.setStatus v).buf = s.buf := rfl
@[simp] theorem State.setStatus_brightness (s : State) (v : Status) : (s.setStatus v).brightness = s.brightness := rfl
@[simp] theorem State.setStatus_reverse (s : State) (v : Status) : (s.setStatus v).reverse = s.reverse := rfl
@[simp] theorem State.setStatus_csN (s : State) (v : Status) : (s.setStatus v).csN = s.csN := rfl
@[simp] theorem State.setStatus_status (s : State) (v : Status) : (s.setStatus v).status = v := rfl
@[simp] theorem State.setStatus_faultSeen (s : State) (v : Status) : (s.setStatus v).faultSeen = s.faultSeen := rfl
@[simp] theorem State.setStatus_seq (s : State) (v : Status) : (s.setStatus v).seq = s.seq := rfl
@[simp] theorem State.setStatus_shadow (s : State) (v : Status) : (s.setStatus v).shadow = s.shadow := rfl
@[simp] theorem State.setStatus_trace (s : State) (v : Status) : (s.setStatus v).trace = s.trace := rfl
@[simp] theorem State.setStatus_port (s : State) (v : Status) : (s.setStatus v).port = s.port := rfl
@[simp] theorem State.setStatus_outcomes (s : State) (v : Status) : (s.setStatus v).outcomes = s.outcomes := rfl
@[simp] theorem State.setStatus_draws (s : State) (v : Status) : (s.setStatus v).draws = s.draws := rfl

@[simp] theorem State.setFaultSeen_buf (s : State) (v : Bool) : (s.setFaultSeen v).buf = s.buf := rfl
@[simp] theorem State.setFaultSeen_brightness (s : State) (v : Bool) : (s.setFaultSeen v).brightness = s.brightness := rfl
@[simp] theorem State.setFaultSeen_reverse (s : State) (v : Bool) : (s.setFaultSeen v).reverse = s.reverse := rfl
@[simp] theorem State.setFaultSeen_csN (s : State) (v : Bool) : (s.setFaultSeen v).csN = s.csN := rfl
@[simp] theorem State.setFaultSeen_status (s : State) (v : Bool) : (s.setFaultSeen v).status = s.status := rfl
@[simp] theorem State.setFaultSeen_faultSeen (s : State) (v : Bool) : (s.setFaultSeen v).faultSeen = v := rfl
@[simp] theorem State.setFaultSeen_seq (s : State) (v : Bool) : (s.setFaultSeen v).seq = s.seq := rfl
@[simp] theorem State.setFaultSeen_shadow (s : State) (v : Bool) : (s.setFaultSeen v).shadow = s.shadow := rfl
@[simp] theorem State.setFaultSeen_trace (s : State) (v : Bool) : (s.setFaultSeen v).trace = s.trace := rfl
@[simp] theorem State.setFaultSeen_port (s : State) (v : Bool) : (s.setFaultSeen v).port = s.port := rfl
@[simp] theorem State.setFaultSeen_outcomes (s : State) (v : Bool) : (s.setFaultSeen v).outcomes = s.outcomes := rfl
@[simp] theorem State.setFaultSeen_draws (s : State) (v : Bool) : (s.setFaultSeen v).draws = s.draws := rfl

@[simp] theorem State.setSeq_buf (s : State) (v : Nat) : (s.setSeq v).buf = s.buf := rfl
@[simp] theorem State.setSeq_brightness (s : State) (v : Nat) : (s.setSeq v).brightness = s.brightness := rfl
@[simp] theorem State.setSeq_reverse (s : State) (v : Nat) : (s.setSeq v).reverse = s.reverse := rfl
@[simp] theorem State.setSeq_csN (s : State) (v : Nat) : (s.setSeq v).csN = s.csN := rfl
@[simp] theorem State.setSeq_status (s : State) (v : Nat) : (s.setSeq v).status = s.status := rfl
@[simp] theorem State.setSeq_faultSeen (s : State) (v : Nat) : (s.setSeq v).faultSeen = s.faultSeen := rfl
@[simp] theorem State.setSeq_seq (s : State) (v : Nat) : (s.setSeq v).seq = v := rfl
@[simp] theorem State.setSeq_shadow (s : State) (v : Nat) : (s.setSeq v).shadow = s.shadow := rfl
@[simp] theorem State.setSeq_trace (s : State) (v : Nat) : (s.setSeq v).trace = s.trace := rfl
@[simp] theorem State.setSeq_port (s : State) (v : Nat) : (s.setSeq v).port = s.port := rfl
@[simp] theorem State.setSeq_outcomes (s : State) (v : Nat) : (s.setSeq v).outcomes = s.outcomes := rfl
@[simp] theorem State.setSeq_draws (s : State) (v : Nat) : (s.setSeq v).draws = s.draws := rfl

@[simp] theorem State.setShadow_buf (s : State) (v : Memory) : (s.setShadow v).buf = s.buf := rfl
@[simp] theorem State.setShadow_brightness (s : State) (v : Memory) : (s.setShadow v).brightness = s.brightness := rfl
@[simp] theorem State.setShadow_reverse (s : State) (v : Memory) : (s.setShadow v).reverse = s.reverse := rfl
@[simp] theorem State.setShadow_csN (s : State) (v : Memory) : (s.setShadow v).csN = s.csN := rfl
@[simp] theorem State.setShadow_status (s : State) (v : Memory) : (s.setShadow v).status = s.status := rfl
@[simp] theorem State.setShadow_faultSeen (s : State) (v : Memory) : (s.setShadow v).faultSeen = s.faultSeen := rfl
@[simp] theorem State.setShadow_seq (s : State) (v : Memory) : (s.setShadow v).seq = s.seq := rfl
@[simp] theorem State.setShadow_shadow (s : State) (v : Memory) : (s.setShadow v).shadow = v := rfl
@[simp] theorem State.setShadow_trace (s : State) (v : Memory) : (s.setShadow v).trace = s.trace := rfl
@[simp] theorem State.setShadow_port (s : State) (v : Memory) : (s.setShadow v).port = s.port := rfl
@[simp] theorem State.setShadow_outcomes (s : State) (v : Memory) : (s.setShadow v).outcomes = s.outcomes := rfl
@[simp] theorem State.setShadow_draws (s : State) (v : Memory) : (s.setShadow v).draws = s.draws := rfl

@[simp] theorem State.setTrace_buf (s : State) (v : List FrameRecord) : (s.setTrace v).buf = s.buf := rfl
@[simp] theorem State.setTrace_brightness (s : State) (v : List FrameRecord) : (s.setTrace v).brightness = s.brightness := rfl
@[simp] theorem State.setTrace_reverse (s : State) (v : List FrameRecord) : (s.setTrace v).reverse = s.reverse := rfl
@[simp] theorem State.setTrace_csN (s : State) (v : List FrameRecord) : (s.setTrace v).csN = s.csN := rfl
@[simp] theorem State.setTrace_status (s : State) (v : List FrameRecord) : (s.setTrace v).status = s.status := rfl
@[simp] theorem State.setTrace_faultSeen (s : State) (v : List FrameRecord) : (s.setTrace v).faultSeen = s.faultSeen := rfl
@[simp] theorem State.setTrace_seq (s : State) (v : List FrameRecord) : (s.setTrace v).seq = s.seq := rfl
@[simp] theorem State.setTrace_shadow (s : State) (v : List FrameRecord) : (s.setTrace v).shadow = s.shadow := rfl
@[simp] theorem State.setTrace_trace (s : State) (v : List FrameRecord) : (s.setTrace v).trace = v := rfl
@[simp] theorem State.setTrace_port (s : State) (v : List FrameRecord) : (s.setTrace v).port = s.port := rfl
@[simp] theorem State.setTrace_outcomes (s : State) (v : List FrameRecord) : (s.setTrace v).outcomes = s.outcomes := rfl
@[simp] theorem State.setTrace_draws (s : State) (v : List FrameRecord) : (s.setTrace v).draws = s.draws := rfl

@[simp] theorem State.setPort_buf (s : State) (v : List PortWord) : (s.setPort v).buf = s.buf := rfl
@[simp] theorem State.setPort_brightness (s : State) (v : List PortWord) : (s.setPort v).brightness = s.brightness := rfl
@[simp] theorem State.setPort_reverse (s : State) (v : List PortWord) : (s.setPort v).reverse = s.reverse := rfl
@[simp] theorem State.setPort_csN (s : State) (v : List PortWord) : (s.setPort v).csN = s.csN := rfl
@[simp] theorem State.setPort_status (s : State) (v : List PortWord) : (s.setPort v).status = s.status := rfl
@[simp] theorem State.setPort_faultSeen (s : State) (v : List PortWord) : (s.setPort v).faultSeen = s.faultSeen := rfl
@[simp] theorem State.setPort_seq (s : State) (v : List PortWord) : (s.setPort v).seq = s.seq := rfl
@[simp] theorem State.setPort_shadow (s : State) (v : List PortWord) : (s.setPort v).shadow = s.shadow := rfl
@[simp] theorem State.setPort_trace (s : State) (v : List PortWord) : (s.setPort v).trace = s.trace := rfl
@[simp] theorem State.setPort_port (s : State) (v : List PortWord) : (s.setPort v).port = v := rfl
@[simp] theorem State.setPort_outcomes (s : State) (v : List PortWord) : (s.setPort v).outcomes = s.outcomes := rfl
@[simp] theorem State.setPort_draws (s : State) (v : List PortWord) : (s.setPort v).draws = s.draws := rfl

@[simp] theorem State.setOutcomes_buf (s : State) (v : List TransportResult) : (s.setOutcomes v).buf = s.buf := rfl
@[simp] theorem State.setOutcomes_brightness (s : State) (v : List TransportResult) : (s.setOutcomes v).brightness = s.brightness := rfl
@[simp] theorem State.setOutcomes_reverse (s : State) (v : List TransportResult) : (s.setOutcomes v).reverse = s.reverse := rfl
@[simp] theorem State.setOutcomes_csN (s : State) (v : List TransportResult) : (s.setOutcomes v).csN = s.csN := rfl
@[simp] theorem State.setOutcomes_status (s : State) (v : List TransportResult) : (s.setOutcomes v).status = s.status := rfl
@[simp] theorem State.setOutcomes_faultSeen (s : State) (v : List TransportResult) : (s.setOutcomes v).faultSeen = s.faultSeen := rfl
@[simp] theorem State.setOutcomes_seq (s : State) (v : List TransportResult) : (s.setOutcomes v).seq = s.seq := rfl
@[simp] theorem State.setOutcomes_shadow (s : State) (v : List TransportResult) : (s.setOutcomes v).shadow = s.shadow := rfl
@[simp] theorem State.setOutcomes_trace (s : State) (v : List TransportResult) : (s.setOutcomes v).trace = s.trace := rfl
@[simp] theorem State.setOutcomes_port (s : State) (v : List TransportResult) : (s.setOutcomes v).port = s.port := rfl
@[simp] theorem State.setOutcomes_outcomes (s : State) (v : List TransportResult) : (s.setOutcomes v).outcomes = v := rfl
@[simp] theorem State.setOutcomes_draws (s : State) (v : List TransportResult) : (s.setOutcomes v).draws = s.draws := rfl

@[simp] theorem State.setDraws_buf (s : State) (v : Nat) : (s.setDraws v).buf = s.buf := rfl
@[simp] theorem State.setDraws_brightness (s : State) (v : Nat) : (s.setDraws v).brightness = s.brightness := rfl
@[simp] theorem State.setDraws_reverse (s : State) (v : Nat) : (s.setDraws v).reverse = s.reverse := rfl
@[simp] theorem State.setDraws_csN (s : State) (v : Nat) : (s.setDraws v).csN = s.csN := rfl
@[simp] theorem State.setDraws_status (s : State) (v : Nat) : (s.setDraws v).status = s.status := rfl
@[simp] theorem State.setDraws_faultSeen (s : State) (v : Nat) : (s.setDraws v).faultSeen = s.faultSeen := rfl
@[simp] theorem State.setDraws_seq (s : State) (v : Nat) : (s.setDraws v).seq = s.seq := rfl
@[simp] theorem State.setDraws_shadow (s : State) (v : Nat) : (s.setDraws v).shadow = s.shadow := rfl
@[simp] theorem State.setDraws_trace (s : State) (v : Nat) : (s.setDraws v).trace = s.trace := rfl
@[simp] theorem State.setDraws_port (s : State) (v : Nat) : (s.setDraws v).port = s.port := rfl
@[simp] theorem State.setDraws_outcomes (s : State) (v : Nat) : (s.setDraws v).outcomes = s.outcomes := rfl
@[simp] theorem State.setDraws_draws (s : State) (v : Nat) : (s.setDraws v).draws = v := rfl

@[simp] theorem State.resetWith_buf (n : Nat) : (State.resetWith n).buf = List.replicate n 0x00#8 := rfl
@[simp] theorem State.resetWith_brightness (n : Nat) : (State.resetWith n).brightness = 7 := rfl
@[simp] theorem State.resetWith_reverse (n : Nat) : (State.resetWith n).reverse = true := rfl
@[simp] theorem State.resetWith_csN (n : Nat) : (State.resetWith n).csN = true := rfl
@[simp] theorem State.resetWith_status (n : Nat) : (State.resetWith n).status = .ok := rfl
@[simp] theorem State.resetWith_faultSeen (n : Nat) : (State.resetWith n).faultSeen = false := rfl
@[simp] theorem State.resetWith_seq (n : Nat) : (State.resetWith n).seq = 0 := rfl
@[simp] theorem State.resetWith_shadow (n : Nat) : (State.resetWith n).shadow = [] := rfl
@[simp] theorem State.resetWith_trace (n : Nat) : (State.resetWith n).trace = [] := rfl
@[simp] theorem State.resetWith_port (n : Nat) : (State.resetWith n).port = [] := rfl
@[simp] theorem State.resetWith_outcomes (n : Nat) : (State.resetWith n).outcomes = [] := rfl
@[simp] theorem State.resetWith_draws (n : Nat) : (State.resetWith n).draws = 0 := rfl

end Sys2Proof.Machine
end

