-- ==== Sys2Proof/Laws/Ops.lean ====
section
/-! SUPPORT. One lemma per shared operation: everything it can do. -/

namespace Sys2Proof.Machine

/-! ### The transport -/

theorem TransportResult.cases_ok_fail (r : TransportResult) : r = .ok ∨ r = .fail := by cases r <;> simp

/-- The answers of a state after one draw are the answers from one frame later on. -/
theorem State.outcomeAt_succ {s t : State} (ho : t.outcomes = s.outcomes.tail) (hd : t.draws = s.draws + 1) (k : Nat) :
    t.outcomeAt k = s.outcomeAt (k + 1) := by
  simp [State.outcomeAt, ho, hd, Nat.add_assoc, Nat.add_comm 1 k]

theorem State.outcomeAt_congr {s t : State} (ho : t.outcomes = s.outcomes) (hd : t.draws = s.draws) (k : Nat) :
    t.outcomeAt k = s.outcomeAt k := by
  simp [State.outcomeAt, ho, hd]

/-! ### The frame primitive -/

theorem writeRegister_ok {s : State} (a d : Byte) (h : s.outcomeAt 0 = .ok) :
    writeRegister a d s = .running (afterOk ⟨a, d⟩ s) := by
  have h' : (assertSelect s).outcomeAt 0 = .ok := h
  simp [writeRegister, transmit, h', settleFrame]
  rfl

theorem writeRegister_fail {s : State} (a d : Byte) (h : s.outcomeAt 0 = .fail) :
    writeRegister a d s = .raised (afterFail ⟨a, d⟩ s) := by
  have h' : (assertSelect s).outcomeAt 0 = .fail := h
  simp [writeRegister, transmit, h', settleFrame]
  rfl

/-- Everything the frame primitive can do. -/
theorem writeRegister_cases (a d : Byte) (s : State) :
    s.outcomeAt 0 = .ok ∧ writeRegister a d s = .running (afterOk ⟨a, d⟩ s)
    ∨ s.outcomeAt 0 = .fail ∧ writeRegister a d s = .raised (afterFail ⟨a, d⟩ s) := by
  rcases TransportResult.cases_ok_fail (s.outcomeAt 0) with h | h
  · exact .inl ⟨h, writeRegister_ok a d h⟩
  · exact .inr ⟨h, writeRegister_fail a d h⟩

/-! ### Completion -/

@[simp] theorem completeCommand_running (s : State) : completeCommand (.running s) = .next { s with status := .ok } := rfl

@[simp] theorem completeCommand_raised (s : State) : completeCommand (.raised s) = .next s := rfl

@[simp] theorem completeFrame_eq (p : Progress) : completeFrame p = .next p.state := rfl

/-- A command that sends one frame. -/
theorem completeCommand_writeRegister (a d : Byte) (s : State) :
    completeCommand (writeRegister a d s) = .next (afterCommandFrame ⟨a, d⟩ s) := by
  rcases writeRegister_cases a d s with ⟨h, e⟩ | ⟨h, e⟩ <;> simp [e, afterCommandFrame, h]

/-- A frame sent on its own. -/
theorem completeFrame_writeRegister (a d : Byte) (s : State) :
    completeFrame (writeRegister a d s) = .next (afterFrame ⟨a, d⟩ s) := by
  rcases writeRegister_cases a d s with ⟨h, e⟩ | ⟨h, e⟩ <;> simp [e, afterFrame, h, Progress.state]

/-- A command over the SET_MASK core. -/
theorem completeCommand_setMaskCore (index : Int) (mask : Byte) (s : State) :
    completeCommand (setMaskCore index mask s) = .next (afterMask index mask s) := by
  unfold setMaskCore afterMask
  split
  · rw [completeCommand_writeRegister]
    rfl
  · simp

theorem setMaskCore_outOfRange {index : Int} {s : State} (mask : Byte) (h : ¬ indexInRange s.digitCount index) :
    setMaskCore index mask s = .running s := if_neg h

theorem setMaskCore_nat {i : Nat} {s : State} (mask : Byte) (h : i < s.digitCount) :
    setMaskCore (i : Int) mask s
      = writeRegister (digitReg s.digitCount s.reverse i) mask (s.setBuf (s.buf.set i mask)) := by
  simp [setMaskCore, indexInRange, h]

/-- The read-modify-write of SET_DOT and CLEAR_DOT. -/
theorem modifyMask_inRange {index : Int} {s : State} (f : Byte → Byte) (h : indexInRange s.digitCount index)
    {b : Byte} (hb : s.buf[index.toNat]? = some b) : modifyMask index f s = setMaskCore index (f b) s := by
  simp only [modifyMask, if_pos h, hb]

theorem modifyMask_outOfRange {index : Int} {s : State} (f : Byte → Byte) (h : ¬ indexInRange s.digitCount index) :
    modifyMask index f s = .running s := if_neg h

/-! ### The sequencer -/

/-- One action of a frame list seen as data: the change it makes to the buffer and the frame it sends. -/
structure FrameAction where
  act : State → Progress
  store : List Byte → List Byte
  frame : Frame

/-- The action does what its data says, in every state with the digit count, orientation and brightness of `s`. -/
def FrameAction.SendsFor (x : FrameAction) (s : State) : Prop :=
  ∀ t : State, t.buf.length = s.buf.length → t.reverse = s.reverse → t.brightness = s.brightness →
    x.act t = writeRegister x.frame.addr x.frame.data (t.setBuf (x.store t.buf))
      ∧ (x.store t.buf).length = t.buf.length

/-- The buffer after the stores of some actions. -/
def storesOf (l : List FrameAction) (buf : List Byte) : List Byte := l.foldl (fun b x => x.store b) buf

theorem FrameAction.SendsFor.congr {x : FrameAction} {s s' : State} (h : x.SendsFor s)
    (hb : s'.buf.length = s.buf.length) (hr : s'.reverse = s.reverse) (hl : s'.brightness = s.brightness) :
    x.SendsFor s' := fun t a b c => h t (a.trans hb) (b.trans hr) (c.trans hl)

/-- A frame list whose frames all succeed. -/
theorem runSequence_allOk (l : List FrameAction) (s : State) (hl : ∀ x ∈ l, x.SendsFor s) (hok : s.allOk l.length) :
    runSequence (l.map (·.act)) s = .running { s with
      buf := storesOf l s.buf
      csN := s.csN || !l.isEmpty
      seq := s.seq + l.length
      shadow := told (l.map (·.frame)) s.shadow
      trace := s.trace ++ okRecords (l.map (·.frame))
      outcomes := s.outcomes.drop l.length
      draws := s.draws + l.length } := by
  induction l generalizing s with
  | nil => simp [runSequence, storesOf, told, okRecords]
  | cons x l ih =>
    obtain ⟨hx, hlen⟩ := hl x (List.mem_cons_self ..) s rfl rfl rfl
    have h0 : (s.setBuf (x.store s.buf)).outcomeAt 0 = .ok := hok 0 (by simp)
    simp only [List.map_cons, runSequence, hx, writeRegister_ok _ _ h0, Progress.andThen]
    rw [ih]
    · simp [afterOk, State.setBuf, State.setSeq, storesOf, told, okRecords, Nat.add_assoc, Nat.add_comm 1]
    · exact fun y hy => (hl y (List.mem_cons_of_mem _ hy)).congr hlen rfl rfl
    · intro j hj
      rw [State.outcomeAt_succ (s := s) rfl rfl]
      exact hok (j + 1) (by simpa using hj)

/-- A frame list whose frame `k` is the first to fail. -/
theorem runSequence_failsAt (l : List FrameAction) (k : Nat) (x : FrameAction) (s : State)
    (hl : ∀ y ∈ l, y.SendsFor s) (hk : l[k]? = some x) (hf : s.failsAt k) :
    runSequence (l.map (·.act)) s = .raised
      { afterFailing ((l.take k).map (·.frame)) x.frame s with buf := storesOf (l.take (k + 1)) s.buf } := by
  induction k generalizing s l with
  | zero =>
    obtain ⟨-, hf⟩ := hf
    cases l with
    | nil => simp at hk
    | cons y l =>
      obtain rfl : y = x := by simpa using hk
      obtain ⟨hx, -⟩ := hl y (List.mem_cons_self ..) s rfl rfl rfl
      have h0 : (s.setBuf (y.store s.buf)).outcomeAt 0 = .fail := hf
      simp only [List.map_cons, runSequence, hx, writeRegister_fail _ _ h0, Progress.andThen]
      simp [afterFail, afterFailing, State.setBuf, storesOf, okRecords]
  | succ k ih =>
    obtain ⟨hok, hf⟩ := hf
    cases l with
    | nil => simp at hk
    | cons y l =>
      obtain ⟨hy, hlen⟩ := hl y (List.mem_cons_self ..) s rfl rfl rfl
      have h0 : (s.setBuf (y.store s.buf)).outcomeAt 0 = .ok := hok 0 (by omega)
      simp only [List.map_cons, runSequence, hy, writeRegister_ok _ _ h0, Progress.andThen]
      rw [ih l]
      · have h1 : s.draws + 1 + (min k l.length + 1) = s.draws + (min k l.length + 1 + 1) := by omega
        simp [afterOk, afterFailing, State.setBuf, State.setSeq, storesOf, okRecords, h1]
      · exact fun z hz => (hl z (List.mem_cons_of_mem _ hz)).congr hlen rfl rfl
      · simpa using hk
      · refine ⟨fun j hj => ?_, ?_⟩
        · rw [State.outcomeAt_succ (s := s) rfl rfl]
          exact hok (j + 1) (by omega)
        · rw [State.outcomeAt_succ (s := s) rfl rfl]
          exact hf

/-- A multi-frame command whose frames all succeed. -/
theorem completeCommand_runMultiFrame_allOk (l : List FrameAction) (s : State) (hl : ∀ x ∈ l, x.SendsFor s)
    (hne : l ≠ []) (hok : s.allOk l.length) :
    completeCommand (runMultiFrame (l.map (·.act)) s)
      = .next { afterAllOk (l.map (·.frame)) s with buf := storesOf l s.buf } := by
  have h := runSequence_allOk l (s.setSeq 0) (fun x hx => (hl x hx).congr rfl rfl rfl) hok
  rw [runMultiFrame, h]
  simp [Progress.andThen, State.setSeq, afterAllOk, hne]

/-- A multi-frame command whose frame `k` is the first to fail. -/
theorem completeCommand_runMultiFrame_failsAt (l : List FrameAction) (k : Nat) (x : FrameAction) (s : State)
    (hl : ∀ y ∈ l, y.SendsFor s) (hk : l[k]? = some x) (hf : s.failsAt k) :
    completeCommand (runMultiFrame (l.map (·.act)) s)
      = .next { afterFailing ((l.take k).map (·.frame)) x.frame s with buf := storesOf (l.take (k + 1)) s.buf } := by
  have h := runSequence_failsAt l k x (s.setSeq 0) (fun y hy => (hl y hy).congr rfl rfl rfl) hk hf
  rw [runMultiFrame, h]
  rfl

/-- Either every frame of a list succeeds or there is a first one that fails. -/
theorem State.allOk_or_failsAt (s : State) (n : Nat) : s.allOk n ∨ ∃ k < n, s.failsAt k := by
  induction n with
  | zero => exact .inl fun j hj => absurd hj (Nat.not_lt_zero j)
  | succ n ih =>
    rcases ih with h | ⟨k, hk, hf⟩
    · rcases TransportResult.cases_ok_fail (s.outcomeAt n) with h' | h'
      · refine .inl fun j hj => ?_
        rcases Nat.lt_succ_iff_lt_or_eq.mp hj with hj | rfl
        · exact h j hj
        · exact h'
      · exact .inr ⟨n, by omega, h, h'⟩
    · exact .inr ⟨k, by omega, hf⟩

/-! ### The clears of CLEAR_ALL and POWER_ON -/

/-- The clear of logical index `i` as data. -/
def clearAction (s : State) (i : Nat) : FrameAction :=
  ⟨setMaskCore (i : Int) 0x00, fun b => b.set i 0x00, ⟨digitReg s.digitCount s.reverse i, 0x00⟩⟩

theorem clearAction_sendsFor (s : State) {i : Nat} (hi : i < s.digitCount) : (clearAction s i).SendsFor s := by
  intro t hb hr _
  have h : i < t.digitCount := by simpa [hb] using hi
  exact ⟨by simp [clearAction, setMaskCore_nat _ h, hb, hr], by simp [clearAction]⟩

/-- Storing 0x00 at the indices below `k` in order clears the first `k` entries. -/
theorem storesOf_clearActions (s : State) (k : Nat) (buf : List Byte) :
    storesOf ((List.range k).map (clearAction s)) buf = clearedBuf k buf := by
  induction k with
  | zero => simp [storesOf, clearedBuf]
  | succ k ih =>
    have e : storesOf ((List.range (k + 1)).map (clearAction s)) buf
        = (storesOf ((List.range k).map (clearAction s)) buf).set k 0x00 := by
      simp [storesOf, List.range_succ, clearAction]
    rw [e, ih]
    apply List.ext_getElem?
    intro j
    simp only [clearedBuf, List.getElem?_set, List.getElem?_append, List.length_append, List.length_replicate,
      List.length_drop, List.getElem?_replicate, List.getElem?_drop]
    by_cases hj : j < buf.length
    · have hk : j < min k buf.length ↔ j < k := by omega
      have hk' : j < min (k + 1) buf.length ↔ j < k + 1 := by omega
      simp only [hk, hk']
      by_cases h1 : j < k
      · have : ¬ k = j := by omega
        have h2 : j < k + 1 := by omega
        simp [this, h1, h2]
      · by_cases h2 : k = j
        · subst h2
          have : min k buf.length + (buf.length - k) = buf.length := by omega
          simp [this, hj]
        · have h3 : ¬ j < k + 1 := by omega
          have e1 : k + (j - min k buf.length) = j := by omega
          have e2 : k + 1 + (j - min (k + 1) buf.length) = j := by omega
          simp [h2, h1, h3, e1, e2]
    · have e1 : ∀ n, ¬ j < min n buf.length := by intro n; omega
      have e2 : ∀ n, buf.length ≤ n + (j - min n buf.length) := by intro n; omega
      have e3 : ¬ (j < min k buf.length + (buf.length - k)) := by omega
      simp [e1, List.getElem?_eq_none (e2 k), List.getElem?_eq_none (e2 (k + 1))]
      intro; omega

/-- Storing 0x00 at every index leaves nothing but 0x00. -/
theorem clearedBuf_length (buf : List Byte) : clearedBuf buf.length buf = List.replicate buf.length 0x00 := by
  simp [clearedBuf]

theorem storesOf_append (a b : List FrameAction) (buf : List Byte) :
    storesOf (a ++ b) buf = storesOf b (storesOf a buf) := by
  simp [storesOf]

theorem map_frame_clearActions (s : State) :
    ((List.range s.digitCount).map (clearAction s)).map (·.frame) = clearFrames s := by
  simp [clearFrames, clearAction, Function.comp_def]

theorem clearActions_eq (s : State) : clearActions s.digitCount
    = ((List.range s.digitCount).map (clearAction s)).map (·.act) := by
  simp [clearActions, clearAction, Function.comp_def]

end Sys2Proof.Machine
end

