-- ==== Sys2Proof/Laws/Lifecycle.lean ====
section
/-! SUPPORT. The frame list of POWER_ON as data for the sequencer's lemmas. -/

namespace Sys2Proof.Machine

/-- An action that only sends a frame. -/
def frameAction (a d : Byte) : FrameAction := ⟨writeRegister a d, id, ⟨a, d⟩⟩

theorem frameAction_sendsFor (a d : Byte) (s : State) : (frameAction a d).SendsFor s := fun _ _ _ _ => ⟨rfl, rfl⟩

/-- The frame of POWER_ON that sends the brightness register. -/
def intensityAction (s : State) : FrameAction :=
  ⟨fun t => writeRegister regIntensity (intensityData t.brightness) t, id, ⟨0x0A, s.brightness.setWidth 8⟩⟩

theorem intensityAction_sendsFor (s : State) : (intensityAction s).SendsFor s :=
  fun _ _ _ hb => ⟨by simp only [intensityAction, hb]; rfl, rfl⟩

/-- The actions of POWER_ON as data (41_lifecycle.md R100). -/
def powerOnData (s : State) : List FrameAction :=
  [frameAction regDisplayTest 0x00, frameAction regDecodeMode 0x00, intensityAction s, frameAction regScanLimit 0x07]
  ++ (List.range s.digitCount).map (clearAction s)
  ++ [frameAction regShutdown 0x01]

theorem map_act_powerOnData (s : State) : (powerOnData s).map (·.act) = powerOnActions s.digitCount := by
  simp only [powerOnData, powerOnActions, clearActions_eq, List.map_append]
  rfl

theorem map_frame_powerOnData (s : State) : (powerOnData s).map (·.frame) = powerOnFrames s := by
  simp only [powerOnData, powerOnFrames, clearFrames, List.map_append, List.map_map]
  rfl

theorem powerOnData_sendsFor (s : State) : ∀ x ∈ powerOnData s, x.SendsFor s := by
  intro x hx
  simp only [powerOnData, List.mem_append, List.mem_cons, List.not_mem_nil, or_false, List.mem_map,
    List.mem_range] at hx
  rcases hx with (((rfl | rfl | rfl | rfl) | ⟨i, hi, rfl⟩) | rfl)
  · exact frameAction_sendsFor _ _ s
  · exact frameAction_sendsFor _ _ s
  · exact intensityAction_sendsFor s
  · exact frameAction_sendsFor _ _ s
  · exact clearAction_sendsFor s hi
  · exact frameAction_sendsFor _ _ s

theorem length_powerOnData (s : State) : (powerOnData s).length = 5 + s.digitCount := by
  simp [powerOnData]
  omega

end Sys2Proof.Machine
end

