-- ==== Sys2Proof/Laws/Operands.lean ====
section
/-! SUPPORT. The physical position and its register stay in range. -/

namespace Sys2Proof.Machine

theorem phys_lt {n i : Nat} (r : Bool) (h : i < n) : phys n r i < n := by
  unfold phys; split <;> omega

theorem digitReg_toNat {n i : Nat} (r : Bool) (h : i < n) (hn : n ≤ 8) :
    (digitReg n r i).toNat = 1 + phys n r i := by
  have := phys_lt r h
  simp [digitReg, digitBase, BitVec.toNat_add]
  omega

theorem digitReg_range {n i : Nat} (r : Bool) (h : i < n) (hn : n ≤ 8) :
    1 ≤ (digitReg n r i).toNat ∧ (digitReg n r i).toNat ≤ n := by
  have := phys_lt r h
  rw [digitReg_toNat r h hn]
  omega

end Sys2Proof.Machine
end

