-- ==== Sys2Proof/Laws/PerInstr.lean ====
section
/-! SUPPORT. Per instruction: the word an instruction is encoded to selects its own row of the opcode table. -/

namespace Sys2Proof.Laws

/-- The pair of a row of format `cmd32` selects the item (30_encoding.md R74). -/
def commandRow (p : Pattern) : PortWord → Bool
  | .command w => p.selects w
  | .frame _ => false

/-- The pair of a row of format `frame16` selects the item (30_encoding.md R79). -/
def frameRow (base mask : FrameWord) : PortWord → Bool
  | .command _ => false
  | .frame w => w &&& mask == base

/-- The row of the opcode table an instruction stands in selects the item. -/
def rowSelects : Instr → PortWord → Bool
  | .powerOn => commandRow patPowerOn
  | .powerOff => commandRow patPowerOff
  | .testOn => commandRow patTestOn
  | .testOff => commandRow patTestOff
  | .setBrightness _ => commandRow patSetBrightness
  | .setReverse _ => commandRow patSetReverse
  | .clear _ => commandRow patClear
  | .clearAll => commandRow patClearAll
  | .setDigit _ _ _ => commandRow patSetDigit
  | .setChar _ _ _ => commandRow patSetChar
  | .setDot _ => commandRow patSetDot
  | .clearDot _ => commandRow patClearDot
  | .setMask _ _ => commandRow patSetMask
  | .frameDigit0 _ => frameRow 0x0100#16 0xFF00#16
  | .frameDigit1 _ => frameRow 0x0200#16 0xFF00#16
  | .frameDigit2 _ => frameRow 0x0300#16 0xFF00#16
  | .frameDigit3 _ => frameRow 0x0400#16 0xFF00#16
  | .frameDigit4 _ => frameRow 0x0500#16 0xFF00#16
  | .frameDigit5 _ => frameRow 0x0600#16 0xFF00#16
  | .frameDigit6 _ => frameRow 0x0700#16 0xFF00#16
  | .frameDigit7 _ => frameRow 0x0800#16 0xFF00#16
  | .frameDecodeMode => frameRow 0x0900#16 0xFFFF#16
  | .frameIntensity _ => frameRow 0x0A00#16 0xFFF0#16
  | .frameScanLimit => frameRow 0x0B07#16 0xFFFF#16
  | .frameShutdown _ => frameRow 0x0C00#16 0xFFFE#16
  | .frameDisplayTest _ => frameRow 0x0F00#16 0xFFFE#16

/-- The encoding of an instruction selects the instruction's own row. -/
def EncodedRow.Statement (i : Instr) : Prop := rowSelects i (encode i) = true

theorem EncodedRow.powerOn : EncodedRow.Statement .powerOn := by unfold EncodedRow.Statement; decide

theorem EncodedRow.powerOff : EncodedRow.Statement .powerOff := by unfold EncodedRow.Statement; decide

theorem EncodedRow.testOn : EncodedRow.Statement .testOn := by unfold EncodedRow.Statement; decide

theorem EncodedRow.testOff : EncodedRow.Statement .testOff := by unfold EncodedRow.Statement; decide

theorem EncodedRow.setBrightness (level : Int) : EncodedRow.Statement (.setBrightness level) :=
  (selects_commandWord patSetBrightness _ 0xF 5 _ true false _ 0x3F 0 _ 0 0 (by decide) (by decide)).mpr
    ⟨by decide, by simp, by simp, by simp⟩

theorem EncodedRow.setReverse (flag : Bool) : EncodedRow.Statement (.setReverse flag) :=
  (selects_commandWord patSetReverse _ 0xF 6 _ false false _ 0x3F 0 _ 0x1FFFFF 0 (by decide) (by decide)).mpr
    ⟨by decide, by simp, by simp, by simp⟩

theorem EncodedRow.clear (index : Int) : EncodedRow.Statement (.clear index) :=
  (selects_commandWord patClear _ 0xF 7 _ true false _ 0 0 _ 0x1FFFFF 0 (by decide) (by decide)).mpr
    ⟨by decide, by simp, by simp, by simp⟩

theorem EncodedRow.clearAll : EncodedRow.Statement .clearAll := by unfold EncodedRow.Statement; decide

theorem EncodedRow.setDigit (index : Int) (digit : Int) (dot : Bool) : EncodedRow.Statement (.setDigit index digit dot) :=
  (selects_commandWord patSetDigit _ 0xF 9 _ false false _ 0 0 _ 0 0 (by decide) (by decide)).mpr
    ⟨by decide, by simp, by simp, by simp⟩

theorem EncodedRow.setChar (index : Int) (cp : Int) (dot : Bool) : EncodedRow.Statement (.setChar index cp dot) :=
  (selects_commandWord patSetChar _ 0xF 0xA _ false false _ 0 0 _ 0 0 (by decide) (by decide)).mpr
    ⟨by decide, by simp, by simp, by simp⟩

theorem EncodedRow.setDot (index : Int) : EncodedRow.Statement (.setDot index) :=
  (selects_commandWord patSetDot _ 0xF 0xB _ true false _ 0 0 _ 0x1FFFFF 0 (by decide) (by decide)).mpr
    ⟨by decide, by simp, by simp, by simp⟩

theorem EncodedRow.clearDot (index : Int) : EncodedRow.Statement (.clearDot index) :=
  (selects_commandWord patClearDot _ 0xF 0xC _ true false _ 0 0 _ 0x1FFFFF 0 (by decide) (by decide)).mpr
    ⟨by decide, by simp, by simp, by simp⟩

theorem EncodedRow.setMask (index : Int) (mask : Byte) : EncodedRow.Statement (.setMask index mask) :=
  (selects_commandWord patSetMask _ 0xF 0xD _ true false _ 0 0 _ 0x1FFF00 0 (by decide) (by decide)).mpr
    ⟨by decide, by simp, by simp, by revert mask; decide⟩

theorem EncodedRow.frameDigit0 (d : Byte) : EncodedRow.Statement (.frameDigit0 d) := by
  unfold EncodedRow.Statement; revert d; decide

theorem EncodedRow.frameDigit1 (d : Byte) : EncodedRow.Statement (.frameDigit1 d) := by
  unfold EncodedRow.Statement; revert d; decide

theorem EncodedRow.frameDigit2 (d : Byte) : EncodedRow.Statement (.frameDigit2 d) := by
  unfold EncodedRow.Statement; revert d; decide

theorem EncodedRow.frameDigit3 (d : Byte) : EncodedRow.Statement (.frameDigit3 d) := by
  unfold EncodedRow.Statement; revert d; decide

theorem EncodedRow.frameDigit4 (d : Byte) : EncodedRow.Statement (.frameDigit4 d) := by
  unfold EncodedRow.Statement; revert d; decide

theorem EncodedRow.frameDigit5 (d : Byte) : EncodedRow.Statement (.frameDigit5 d) := by
  unfold EncodedRow.Statement; revert d; decide

theorem EncodedRow.frameDigit6 (d : Byte) : EncodedRow.Statement (.frameDigit6 d) := by
  unfold EncodedRow.Statement; revert d; decide

theorem EncodedRow.frameDigit7 (d : Byte) : EncodedRow.Statement (.frameDigit7 d) := by
  unfold EncodedRow.Statement; revert d; decide

theorem EncodedRow.frameDecodeMode : EncodedRow.Statement .frameDecodeMode := by unfold EncodedRow.Statement; decide

theorem EncodedRow.frameIntensity (level : BitVec 4) : EncodedRow.Statement (.frameIntensity level) := by
  unfold EncodedRow.Statement; revert level; decide

theorem EncodedRow.frameScanLimit : EncodedRow.Statement .frameScanLimit := by unfold EncodedRow.Statement; decide

theorem EncodedRow.frameShutdown (normal : Bool) : EncodedRow.Statement (.frameShutdown normal) := by
  unfold EncodedRow.Statement; revert normal; decide

theorem EncodedRow.frameDisplayTest (on : Bool) : EncodedRow.Statement (.frameDisplayTest on) := by
  unfold EncodedRow.Statement; revert on; decide

end Sys2Proof.Laws
end

