-- ==== Sys2Proof/Laws/Safety.lean ====
section
/-! SUPPORT. Laws of the terms claims use: what a list of frames leaves in the shadow, the replay of a trace, and the
cases of a sent frame. -/

namespace Sys2Proof.Machine

/-! ### The shadow after successful frames -/

theorem told_append (a b : List Frame) (m : Memory) : told (a ++ b) m = told b (told a m) := by simp [told]

/-- An address no frame of the list writes reads as before. -/
theorem told_read_other (fs : List Frame) (m : Memory) (a : Nat) (h : ∀ f ∈ fs, f.addr.toNat ≠ a) :
    (told fs m).read a = m.read a := by
  induction fs generalizing m with
  | nil => rfl
  | cons f fs ih =>
    show (told fs (m.write f.addr.toNat f.data)).read a = _
    rw [ih _ fun g hg => h g (List.mem_cons_of_mem _ hg),
      Memory.read_write_other _ _ (Ne.symm (h f (List.mem_cons_self ..)))]

theorem told_wf (fs : List Frame) (m : Memory) (h : m.wf) : (told fs m).wf := by
  induction fs generalizing m with
  | nil => exact h
  | cons f fs ih => exact ih _ (Memory.wf_write _ f.addr.isLt h)

/-! ### The replay of a trace -/

theorem replay_append_okRecords (tr : List FrameRecord) (fs : List Frame) :
    replay (tr ++ okRecords fs) = told fs (replay tr) := by
  simp only [replay, List.foldl_append]
  generalize List.foldl _ _ tr = m
  induction fs generalizing m with
  | nil => rfl
  | cons f fs ih => exact ih _

theorem replay_append_fail (tr : List FrameRecord) (f : Frame) : replay (tr ++ [⟨f, .fail⟩]) = [] := by simp [replay]

/-! ### The cases of a sent frame -/

theorem afterFrame_cases (f : Frame) (s : State) :
    s.outcomeAt 0 = .ok ∧ afterFrame f s = afterOk f s ∨ s.outcomeAt 0 = .fail ∧ afterFrame f s = afterFail f s := by
  rcases TransportResult.cases_ok_fail (s.outcomeAt 0) with h | h <;> simp [afterFrame, h]

theorem afterCommandFrame_cases (f : Frame) (s : State) :
    s.outcomeAt 0 = .ok ∧ afterCommandFrame f s = { afterOk f s with status := .ok }
    ∨ s.outcomeAt 0 = .fail ∧ afterCommandFrame f s = afterFail f s := by
  rcases TransportResult.cases_ok_fail (s.outcomeAt 0) with h | h <;> simp [afterCommandFrame, h]

/-- The buffer after a mask was placed, whatever the transport answered. -/
theorem afterMask_buf (index : Int) (mask : Byte) (s : State) :
    (afterMask index mask s).buf
      = if 0 ≤ index ∧ index < s.digitCount then s.buf.set index.toNat mask else s.buf := by
  unfold afterMask
  split
  · rcases afterCommandFrame_cases ⟨digitReg s.digitCount s.reverse index.toNat, mask⟩
      { s with buf := s.buf.set index.toNat mask } with ⟨-, e⟩ | ⟨-, e⟩ <;> rw [e] <;> rfl
  · rfl

/-- The clear frames write digit registers of the positions below the digit count only. -/
theorem clearFrames_addr {s : State} (hl : s.legal) {f : Frame} (hf : f ∈ clearFrames s) :
    1 ≤ f.addr.toNat ∧ f.addr.toNat ≤ s.digitCount := by
  simp only [clearFrames, List.mem_map, List.mem_range] at hf
  obtain ⟨i, hi, rfl⟩ := hf
  exact digitReg_range s.reverse hi hl.2

end Sys2Proof.Machine
end

