-- ==== Sys2Proof/Laws/Step.lean ====
section
/-! SUPPORT. Everything a step that goes on can do, and the unfolding of SET_STRING. -/

namespace Sys2Proof.Machine

/-- A step that goes on had no word, or ran the instruction of the oldest one. -/
theorem step_cases {s t : State} (h : step s = .next t) :
    (s.port = [] ∧ t = s)
    ∨ ∃ p rest i, s.port = p :: rest ∧ decode p = .ok i ∧ exec i (s.setPort rest) = .next t := by
  unfold step at h
  split at h
  · rename_i e
    injection h with h
    subst h
    unfold accept at e
    split at e
    · exact .inl ⟨by assumption, rfl⟩
    · split at e <;> cases e
  · rename_i e
    unfold accept at e
    split at e
    · cases e
    · split at e
      · injection e with e1 e2
        subst e1 e2
        exact .inr ⟨_, _, _, by assumption, by assumption, h⟩
      · cases e
  · cases h

theorem expandString_cons (start : Int) (c : Nat) (cs : List Nat) :
    expandString start (c :: cs)
      = if indexFits start then .setChar start c false :: expandString (start + 1) cs
        else expandString (start + 1) cs := rfl

end Sys2Proof.Machine
end

