-- ==== Sys2Proof/Laws/View.lean ====
section
/-! SUPPORT. The phase of a configured controller, and the view of an active one. -/

namespace Sys2Proof.Machine

theorem configured_of_phase {m : Memory} (h : phase m ≠ .uninitialized) : configured m :=
  Classical.byContradiction fun hn => h (by rw [phase, if_pos hn])

/-- The phase of a configured controller whose DISPLAY_TEST and SHUTDOWN are known. -/
theorem phase_of_configured {m : Memory} (h : configured m) {x y : Byte} (hF : m.read 0x0F = some x)
    (hC : m.read 0x0C = some y) :
    phase m = if x = 1 then .testOverlay
      else if x = 0 ∧ y = 1 then .active
      else if x = 0 ∧ y = 0 then .shutdown
      else .uninitialized := by
  rw [phase, if_neg (not_not.mpr h)]
  simp [show regDisplayTest.toNat = 0x0F from rfl, show regShutdown.toNat = 0x0C from rfl, hF, hC]

end Sys2Proof.Machine
end

