-- ==== Sys2Proof/Tests/Slice0.lean ====
section
/-! SUPPORT. Tests of the model against the vectors of spec/, and a witness for the hypotheses of each statement. -/

namespace Sys2Proof.Tests

open Sys2Proof Sys2Proof.Machine

/-! ### Helpers -/

/-- Reset with digit count `n`, and the transport's next answers fixed: `k` times ok, then one failure. -/
def okThenFail (n k : Nat) : State := { State.resetWith n with outcomes := List.replicate k .ok ++ [.fail] }

/-- Reset with digit count `n`, the next 20 frames succeeding. -/
def good (n : Nat) : State := { State.resetWith n with outcomes := List.replicate 20 .ok }

/-- A good state whose controller was configured, with the given SHUTDOWN and DISPLAY_TEST. -/
def configuredState (n : Nat) (shutdown test : Byte) : State :=
  { good n with shadow := [(0x09, 0x00), (0x0A, 0x07), (0x0B, 0x07), (0x0C, shutdown), (0x0F, test)] }

/-- The state after one step on the command word. -/
def afterWord (w : Word) (s : State) : Option State :=
  match step (placeWord (.command w) s) with
  | .next t => some t
  | .fault _ => none
  | .refused _ => none

/-- The state after one step on the frame word. -/
def afterFrameWord (w : FrameWord) (s : State) : Option State :=
  match step (placeWord (.frame w) s) with
  | .next t => some t
  | .fault _ => none
  | .refused _ => none

/-- The refusal one step on the word ends in. -/
def refusalAfter (p : PortWord) (s : State) : Option Refusal :=
  match step (placeWord p s) with
  | .next _ => none
  | .fault _ => none
  | .refused r => some r

/-- The 16-bit forms of the frames sent, with whether each succeeded. -/
def sentOf (s : State) : List (FrameWord × Bool) := s.trace.map fun r => (r.frame.word, decide (r.outcome = .ok))

/-! ### Well-formedness: one ill-formed term for each check (30_encoding.md R72) -/

theorem test_wf_index_above : ¬ (Instr.clear 64).WellFormed := by decide
theorem test_wf_index_below : ¬ (Instr.setMask (-1) 0x5A#8).WellFormed := by decide
theorem test_wf_index_max : (Instr.clear 63).WellFormed := by decide
theorem test_wf_level_above : ¬ (Instr.setBrightness 0x200000).WellFormed := by decide
theorem test_wf_level_below : ¬ (Instr.setBrightness (-1)).WellFormed := by decide
theorem test_wf_digit_index : ¬ (Instr.setDigit 64 0 false).WellFormed := by decide
theorem test_wf_digit_arg : ¬ (Instr.setDigit 0 0x200000 false).WellFormed := by decide
theorem test_wf_char_index : ¬ (Instr.setChar (-1) 0x41 false).WellFormed := by decide
theorem test_wf_char_arg : ¬ (Instr.setChar 0 (-1) false).WellFormed := by decide
theorem test_wf_set_dot : ¬ (Instr.setDot 64).WellFormed := by decide
theorem test_wf_clear_dot : ¬ (Instr.clearDot 64).WellFormed := by decide

/-! ### Decoding: a word written out from the encoding, for every constructor (30_encoding.md R71 to R79,
95_test_vectors.md V-DEC) -/
theorem test_decodepower_on :
    decode (.command 0b00010000000000000000000000000000#32) = .ok (.powerOn) := by decide
theorem test_decodepower_off :
    decode (.command 0b00100000000000000000000000000000#32) = .ok (.powerOff) := by decide
theorem test_decodetest_on :
    decode (.command 0b00110000000000000000000000000000#32) = .ok (.testOn) := by decide
theorem test_decodetest_off :
    decode (.command 0b01000000000000000000000000000000#32) = .ok (.testOff) := by decide
theorem test_decodeset_brightness :
    decode (.command 0b01010000000000000000000000001111#32) = .ok (.setBrightness 15) := by decide
theorem test_decodeset_reverse :
    decode (.command 0b01101000000000000000000000000000#32) = .ok (.setReverse true) := by decide
theorem test_decodeclear :
    decode (.command 0b01110000111000000000000000000000#32) = .ok (.clear 7) := by decide
theorem test_decodeclear_all :
    decode (.command 0b10000000000000000000000000000000#32) = .ok (.clearAll) := by decide
theorem test_decodeset_digit :
    decode (.command 0b10011100001000000000000000000011#32) = .ok (.setDigit 33 3 true) := by decide
theorem test_decodeset_char :
    decode (.command 0b10100000001000000000000001001001#32) = .ok (.setChar 1 0x49 false) := by decide
theorem test_decodeset_dot :
    decode (.command 0b10110000001000000000000000000000#32) = .ok (.setDot 1) := by decide
theorem test_decodeclear_dot :
    decode (.command 0b11000111111000000000000000000000#32) = .ok (.clearDot 63) := by decide
theorem test_decodeset_mask :
    decode (.command 0b11010000010000000000000001011010#32) = .ok (.setMask 2 0x5A#8) := by decide
theorem test_decodeframe_digit_0 :
    decode (.frame 0b0000000101011010#16) = .ok (.frameDigit0 0x5A#8) := by decide
theorem test_decodeframe_digit_1 :
    decode (.frame 0b0000001001011010#16) = .ok (.frameDigit1 0x5A#8) := by decide
theorem test_decodeframe_digit_2 :
    decode (.frame 0b0000001101011010#16) = .ok (.frameDigit2 0x5A#8) := by decide
theorem test_decodeframe_digit_3 :
    decode (.frame 0b0000010001011010#16) = .ok (.frameDigit3 0x5A#8) := by decide
theorem test_decodeframe_digit_4 :
    decode (.frame 0b0000010101011010#16) = .ok (.frameDigit4 0x5A#8) := by decide
theorem test_decodeframe_digit_5 :
    decode (.frame 0b0000011001011010#16) = .ok (.frameDigit5 0x5A#8) := by decide
theorem test_decodeframe_digit_6 :
    decode (.frame 0b0000011101011010#16) = .ok (.frameDigit6 0x5A#8) := by decide
theorem test_decodeframe_digit_7 :
    decode (.frame 0b0000100001011010#16) = .ok (.frameDigit7 0x5A#8) := by decide
theorem test_decodeframe_decode_mode :
    decode (.frame 0b0000100100000000#16) = .ok (.frameDecodeMode) := by decide
theorem test_decodeframe_intensity :
    decode (.frame 0b0000101000001001#16) = .ok (.frameIntensity 9#4) := by decide
theorem test_decodeframe_scan_limit :
    decode (.frame 0b0000101100000111#16) = .ok (.frameScanLimit) := by decide
theorem test_decodeframe_shutdown :
    decode (.frame 0b0000110000000001#16) = .ok (.frameShutdown true) := by decide
theorem test_decodeframe_display_test :
    decode (.frame 0b0000111100000001#16) = .ok (.frameDisplayTest true) := by decide

theorem test_decode_illegal_words :
    [0x00000000#32, 0x10000001#32, 0x18000000#32, 0x50200000#32, 0x58000000#32, 0x60000001#32, 0x60200000#32,
      0x70000001#32, 0x78000000#32, 0x80200000#32, 0xB0000001#32, 0xC8000000#32, 0xD0000100#32, 0xD8000000#32,
      0xDFE000FF#32, 0xE0000000#32, 0xF0000000#32, 0xFFFFFFFF#32].all
      (fun w => decide (refusalAfter (.command w) State.reset = some (.illegalCommand w))) = true := by decide +kernel

theorem test_decode_unlisted_frames :
    [0x0000#16, 0x0901#16, 0x0A10#16, 0x0B06#16, 0x0C02#16, 0x0D00#16, 0x0E00#16, 0x0F02#16, 0x1000#16].all
      (fun w => decide (refusalAfter (.frame w) State.reset = some (.unlistedFrame w))) = true := by decide +kernel

/-- The rows of the opcode table with no free bit set (spec/opcode_table.json). -/
theorem test_table_rows :
    [(32, 0x10000000), (32, 0x60000000), (32, 0x90000000), (16, 0x0800), (16, 0x0B07), (16, 0x0F00)].map
        (fun r => decodeTableWord r.1 r.2)
      = [some .powerOn, some (.setReverse false), some (.setDigit 0 0 false), some (.frameDigit7 0x00#8),
        some .frameScanLimit, some (.frameDisplayTest false)] := by decide

/-- A word placed for the next fetch is what the step runs. -/
theorem test_with_fetch_word : step (State.reset.withFetchWord 32 0x60000000) = exec (.setReverse false) State.reset := by
  rfl

/-! ### One step of each instruction (95_test_vectors.md V-CMD, V-FAIL, section 1) -/

/-- V-CMD: POWER_ON at N = 4, reverse true. -/
theorem test_power_on_frames : (afterWord 0x10000000#32 (good 4)).map (fun t => sentOf t)
    = some ([0x0F00#16, 0x0900#16, 0x0A07#16, 0x0B07#16, 0x0400#16, 0x0300#16, 0x0200#16, 0x0100#16, 0x0C01#16].map
      fun f => (f, true)) := by decide

/-- V-FAIL: POWER_ON at N = 4 fails at frame 5. -/
theorem test_power_on_fails : (afterWord 0x10000000#32 { okThenFail 4 5 with buf := [0x11, 0x22, 0x33, 0x44] }).map
      (fun t => (t.buf, t.status, t.faultSeen, t.trace.length)) = some ([0x00#8, 0x00#8, 0x33#8, 0x44#8], .busError, true, 6) := by decide

theorem test_power_off : (afterWord 0x20000000#32 (configuredState 8 0x01 0x00)).map
      (fun t => (sentOf t, phase t.shadow, t.status)) = some ([(0x0C00#16, true)], .shutdown, .ok) := by decide

theorem test_test_on : (afterWord 0x30000000#32 (configuredState 3 0x01 0x00)).map
      (fun t => (sentOf t, phase t.shadow, t.status)) = some ([(0x0F01#16, true)], .testOverlay, .ok) := by decide

/-- V-FAIL: a failed TEST_ON. -/
theorem test_test_on_fails : (afterWord 0x30000000#32 (okThenFail 8 0)).map
      (fun t => (sentOf t, t.shadow, t.status, t.faultSeen)) = some ([(0x0F01#16, false)], [], .busError, true) := by
  decide

theorem test_test_off : (afterWord 0x40000000#32 (configuredState 8 0x00 0x01)).map
      (fun t => (sentOf t, phase t.shadow, t.status)) = some ([(0x0F00#16, true)], .shutdown, .ok) := by decide

/-- V-FAIL: SET_BRIGHTNESS fails, the level stored already. -/
theorem test_set_brightness_fails : (afterWord 0x50000003#32 (okThenFail 8 0)).map
      (fun t => (sentOf t, t.brightness, t.status)) = some ([(0x0A03#16, false)], 3#4, .busError) := by decide

/-- S6: an out-of-range level. -/
theorem test_set_brightness_out_of_range : (afterWord 0x50000010#32 { good 8 with status := .busError }).map
      (fun t => (sentOf t, t.brightness, t.status)) = some ([], 7#4, .ok) := by decide

/-- V-FAIL: SET_REVERSE sends nothing, so it cannot fail. -/
theorem test_set_reverse : (afterWord 0x60000000#32 (okThenFail 8 0)).map
      (fun t => (sentOf t, t.reverse, t.status)) = some ([], false, .ok) := by decide

theorem test_clear : (afterWord 0x70E00000#32 { good 8 with buf := List.replicate 8 0xFF }).map
      (fun t => (sentOf t, t.buf[7]?, t.buf[6]?)) = some ([(0x0100#16, true)], some 0x00#8, some 0xFF#8) := by decide

/-- P2: CLEAR 63 is a no-op. -/
theorem test_clear_out_of_range : (afterWord 0x77E00000#32 (good 4)).map (fun t => (sentOf t, t.status))
    = some ([], .ok) := by decide

/-- P5: CLEAR_ALL at N = 3. -/
theorem test_clear_all : (afterWord 0x80000000#32 (configuredState 3 0x01 0x01)).map (fun t => (sentOf t, phase t.shadow))
    = some ([(0x0300#16, true), (0x0200#16, true), (0x0100#16, true)], .testOverlay) := by decide

/-- V-FAIL: CLEAR_ALL at N = 3 fails at frame 1. -/
theorem test_clear_all_fails : (afterWord 0x80000000#32 { okThenFail 3 1 with buf := [0x01, 0x02, 0x03] }).map
      (fun t => (sentOf t, t.buf, t.seq)) = some ([(0x0300#16, true), (0x0200#16, false)], [0x00#8, 0x00#8, 0x03#8], 0) := by
  decide

/-- S2: SET_DIGIT 0, 3 with dot. -/
theorem test_set_digit : (afterWord 0x98000003#32 (good 8)).map (fun t => t.buf[0]?)
    = some (some (Config.digitLut 3 ||| 0x80)) := rfl

/-- S3: a digit beyond the table, with dot. -/
theorem test_set_digit_blank : (afterWord 0x981FFFFF#32 (good 8)).map (fun t => sentOf t)
    = some [(0x0880#16, true)] := by decide

/-- S9: the degree sign. -/
theorem test_set_char : (afterWord 0xA00000B0#32 (good 8)).map (fun t => sentOf t) = some [(0x0863#16, true)] := by decide

/-- V-CMD: SET_CHAR of a lower-case letter. -/
theorem test_set_char_letter : (afterWord 0xA0000068#32 (good 8)).map (fun t => t.buf[0]?)
    = some (some (Config.letterLut 7)) := rfl

/-- V-CMD: SET_DOT 1 on 0x01. -/
theorem test_set_dot : (afterWord 0xB0200000#32 { good 8 with buf := [0, 1, 0, 0, 0, 0, 0, 0] }).map
      (fun t => (sentOf t, t.buf[1]?)) = some ([(0x0781#16, true)], some 0x81#8) := by decide

/-- V-CMD: SET_DOT out of range. -/
theorem test_set_dot_out_of_range : (afterWord 0xB1000000#32 (good 8)).map (fun t => (sentOf t, t.buf))
    = some ([], List.replicate 8 0x00#8) := by decide

/-- V-CMD: CLEAR_DOT 0 on 0xFF, reverse false. -/
theorem test_clear_dot : (afterWord 0xC0000000#32 { good 2 with buf := [0xFF, 0x00], reverse := false }).map
      (fun t => (sentOf t, t.buf)) = some ([(0x017F#16, true)], [0x7F#8, 0x00#8]) := by decide

/-- V-CMD: CLEAR_DOT out of range at N = 1. -/
theorem test_clear_dot_out_of_range : (afterWord 0xC0200000#32 (good 1)).map (fun t => (sentOf t, t.buf))
    = some ([], [0x00#8]) := by decide

/-- V-FAIL: SET_MASK fails, the buffer stored already. -/
theorem test_set_mask_fails : (afterWord 0xD000005A#32 (okThenFail 8 0)).map (fun t => (sentOf t, t.buf[0]?, t.status))
    = some ([(0x085A#16, false)], some 0x5A#8, .busError) := by decide

/-- S5: SET_MASK 0 at N = 3, reverse true. -/
theorem test_set_mask_register : (afterWord 0xD000005A#32 (good 3)).map (fun t => (sentOf t, t.shadow))
    = some ([(0x035A#16, true)], [(3, 0x5A#8)]) := by decide

/-- The frame rows: each sends its own frame (30_encoding.md R79, 20_memory.md R50). -/
theorem test_frame_rows :
    [0x01A5#16, 0x02A5#16, 0x03A5#16, 0x04A5#16, 0x05A5#16, 0x06A5#16, 0x07A5#16, 0x08A5#16, 0x0900#16, 0x0A0F#16,
      0x0B07#16, 0x0C00#16, 0x0F01#16].all
      (fun w => decide ((afterFrameWord w (good 8)).map (fun t => (sentOf t, t.shadow.length, t.status))
        = some ([(w, true)], 1, .ok))) = true := by decide +kernel

theorem test_frame_row_fails : (afterFrameWord 0x0C01#16 (okThenFail 8 0)).map (fun t => (sentOf t, t.status, t.shadow))
    = some ([(0x0C01#16, false)], .busError, []) := by decide

/-! ### The encoder (95_test_vectors.md V-ENC) -/

theorem test_char_blank_neighbours :
    ∀ cp ∈ [0x20, 0x2E, 0x3F, 0x2F, 0x3A, 0x40, 0x5C, 0x60, 0x7B, 0xBA, 0x2103, 0xC0, 0x1FFFFF],
      charMask cp = 0x00#8 := by decide

theorem test_char_letters : charMask 0x41 = Config.letterLut 0 ∧ charMask 0x61 = Config.letterLut 0
    ∧ charMask 0x5A = Config.letterLut 25 ∧ charMask 0x7A = Config.letterLut 25 ∧ charMask 0x39 = Config.digitLut 9 :=
  ⟨rfl, rfl, rfl, rfl, rfl⟩

theorem test_map_registers : digitReg 3 true 0 = 0x03#8 ∧ digitReg 3 true 2 = 0x01#8 ∧ digitReg 8 false 4 = 0x05#8
    ∧ digitReg 8 true 4 = 0x04#8 ∧ digitReg 1 true 0 = 0x01#8 := by decide

/-! ### The view (60_exceptions.md R190) -/

theorem test_view_all_on : viewWith true false (configuredState 8 0x00 0x01).shadow 0 = some 0x7F#8
    ∧ viewWith true true (configuredState 8 0x01 0x01).shadow 7 = some 0xFF#8
    ∧ viewWith false true (configuredState 8 0x00 0x01).shadow 0 = some 0x00#8
    ∧ viewWith true true (configuredState 8 0x00 0x00).shadow 3 = some 0x00#8 := by decide

/-! ### The assembler (30_encoding.md R85 to R88) -/

theorem test_assemble_string : assembleText "SET_STRING 0, \"HI\"" = some [0xA0000048#32, 0xA0200049#32] := by
  decide

theorem test_assemble_char : assembleText "SET_CHAR 0, U+00B0, dot" = some [0xA80000B0#32] := by decide

theorem test_assemble_range_error : assembleText "CLEAR 64" = none := by decide

theorem test_disassemble : disassemble 0x98000003#32 = "SET_DIGIT 0, 3, dot".toList
    ∧ disassemble 0xD000005A#32 = "SET_MASK 0, 0x5A".toList
    ∧ disassemble 0xE0000000#32 = ".word 0xE0000000".toList := by decide

/-! ### Witnesses: the hypotheses of each statement can be met

One theorem per statement with hypotheses, for each clause, at the ends of its range. -/

/-- Whether exec answers a next state. -/
def answers (i : Instr) (s : State) : Bool :=
  match exec i s with
  | .next _ => true
  | .fault _ => false
  | .refused _ => false

theorem witness_DecodeOfEncode : (Instr.setDigit 63 0x1FFFFF true).WellFormed ∧ (Instr.setChar 0 0 false).WellFormed
    ∧ (Instr.setBrightness 0x1FFFFF).WellFormed ∧ (Instr.frameIntensity 0xF#4).WellFormed := by decide

theorem witness_EncodeOfDecode : decode (.command 0x9FFFFFFF#32) = .ok (.setDigit 63 0x1FFFFF true)
    ∧ decode (.frame 0x0F01#16) = .ok (.frameDisplayTest true) := by decide

theorem witness_CommandRowsPartitionLegalWords : patPowerOn ∈ commandPatterns ∧ patPowerOn.selects 0x10000000#32 = true
    ∧ patSetMask ∈ commandPatterns ∧ patSetMask.selects 0xD7E000FF#32 = true := by decide

theorem witness_ReservedOpcodeRefused :
    (placeWord (.command 0x00000000#32) State.reset).port = [.command 0x00000000#32]
    ∧ opField 0x00000000#32 = 0x0 ∧ opField 0xE0000000#32 = 0xE ∧ opField 0xFFFFFFFF#32 = 0xF := by decide

theorem witness_UnusedFieldRefused :
    (placeWord (.command 0xD0000100#32) State.reset).port = [.command 0xD0000100#32]
    ∧ opField 0xD0000100#32 = 0xD ∧ (∀ p ∈ commandPatterns, p.selects 0xD0000100#32 = false)
    ∧ opField 0x10000001#32 = 0x1 ∧ (∀ p ∈ commandPatterns, p.selects 0x10000001#32 = false) := by decide

theorem witness_StepRunsTheDecodedInstruction :
    (placeWord (.command 0x60000000#32) State.reset).port = [.command 0x60000000#32]
    ∧ decode (.command 0x60000000#32) = .ok (.setReverse false) ∧ State.reset.port = [] := by decide

theorem witness_ConstructRefusesIllegalDigitCounts :
    State.construct 0 = none ∧ State.construct 9 = none ∧ State.construct 1 = some (State.resetWith 1)
    ∧ State.construct 8 = some (State.resetWith 8) := by decide

theorem witness_FrameWireForm : (⟨0x0A, 0x07⟩ : Frame).wireBits[0]? = some false
    ∧ (⟨0x0A, 0x07⟩ : Frame).wireBits[15]? = some true ∧ (⟨0x0A, 0x07⟩ : Frame).wireBits[4]? = some true := by decide

theorem witness_WriteRegisterEffect : (good 8).outcomeAt 0 = .ok ∧ (okThenFail 8 0).outcomeAt 0 = .fail := by decide

theorem witness_RepeatedFrameIsIdempotent :
    (configuredState 8 0x01 0x00).known 0x0C = some 0x01#8 ∧ (configuredState 8 0x01 0x00).outcomeAt 0 = .ok := by decide

theorem witness_StatusTellsWhetherAFrameFailed : Instr.testOn.isCommand = true ∧ answers .testOn (good 8) = true
    ∧ answers .testOn (okThenFail 8 0) = true ∧ (okThenFail 8 0).outcomeAt 0 = .fail := by decide

theorem witness_FailureLeavesUninitialized :
    exec .testOn (okThenFail 8 0) = .next (afterFail ⟨0x0F, 0x01⟩ (okThenFail 8 0))
    ∧ (afterFail ⟨0x0F, 0x01⟩ (okThenFail 8 0)).status = .busError
    ∧ Instr.testOn ≠ .powerOn ∧ (good 8).legal ∧ (good 8).known 0x09 = none ∧ (good 8).known 0x0B = none
    ∧ exec .testOn (good 8) = .next { afterOk ⟨0x0F, 0x01⟩ (good 8) with status := .ok } :=
  ⟨rfl, by decide, by decide, by decide, by decide, by decide, rfl⟩

theorem witness_FaultSeenIsSticky : step (placeWord (.command 0x30000000#32) (okThenFail 8 0))
      = .next (afterFail ⟨0x0F, 0x01⟩ (okThenFail 8 0)) ∧ step State.reset = .next State.reset := ⟨rfl, rfl⟩

theorem witness_PowerOnSendsItsFrames : (good 8).legal ∧ (good 8).allOk 13 ∧ (good 8).digitCount = 8
    ∧ (good 1).legal ∧ (good 1).allOk 6 ∧ (good 1).digitCount = 1 := by decide

theorem witness_PowerOnFromReset : good 8 = { State.reset with outcomes := (good 8).outcomes, draws := (good 8).draws }
    ∧ (good 8).allOk 13 := by decide

theorem witness_PowerOnStopsAtFailingFrame :
    (okThenFail 8 0).failsAt 0 ∧ (powerOnFrames (okThenFail 8 0))[0]? = some ⟨0x0F, 0x00⟩
    ∧ (okThenFail 4 3).failsAt 3 ∧ (powerOnFrames (okThenFail 4 3))[3]? = some ⟨0x0B, 0x07⟩
    ∧ (okThenFail 4 4).failsAt 4 ∧ (powerOnFrames (okThenFail 4 4))[4]? = some ⟨0x04, 0x00⟩
    ∧ (okThenFail 2 6).failsAt 6 ∧ (powerOnFrames (okThenFail 2 6))[6]? = some ⟨0x0C, 0x01⟩ := by decide

theorem witness_SetBrightnessEffect : 0x501FFFFF#32 &&& 0xFFE00000#32 = 0x50000000#32
    ∧ answers (.setBrightness 0) (good 8) = true ∧ answers (.setBrightness 15) (okThenFail 8 0) = true
    ∧ answers (.setBrightness 16) (good 8) = true ∧ answers (.setBrightness (-1)) (good 8) = true := by decide

theorem witness_SetBrightnessIsIdempotent : (0 : Int) ≤ 15 ∧ (15 : Int) ≤ 15 ∧ (good 8).allOk 2 := by decide

theorem witness_ReverseSelectsTheRegisterOfIndexZero : (good 8).legal ∧ (good 1).legal := by decide

theorem witness_SetMaskEffect : 0xD7E000FF#32 &&& 0xF81FFF00#32 = 0xD0000000#32
    ∧ 0 < (good 8).digitCount ∧ 7 < (good 8).digitCount ∧ ((-1 : Int) < 0)
    ∧ ((good 8).digitCount : Int) ≤ 8 := by decide

theorem witness_OutOfRangeIndexIsNoOp : (Instr.setDot 8).contentIndex = some 8 ∧ ((good 8).digitCount : Int) ≤ 8
    ∧ (Instr.clear (-1)).contentIndex = some (-1) ∧ ((-1 : Int) < 0) := by decide

theorem witness_ClearEffect : 0x77E00000#32 &&& 0xF81FFFFF#32 = 0x70000000#32 := by decide

theorem witness_ClearAllSendsItsFrames : (good 8).legal ∧ (good 8).allOk (good 8).digitCount
    ∧ (good 1).legal ∧ (good 1).allOk (good 1).digitCount ∧ 0 < (good 1).digitCount ∧ 7 < (good 8).digitCount := by decide

theorem witness_ClearAllStopsAtFailingFrame :
    (okThenFail 3 0).failsAt 0 ∧ (clearFrames (okThenFail 3 0))[0]? = some ⟨0x03, 0x00⟩
    ∧ (okThenFail 3 2).failsAt 2 ∧ (clearFrames (okThenFail 3 2))[2]? = some ⟨0x01, 0x00⟩ := by decide

theorem witness_SetDigitEffect : 0x9FFFFFFF#32 &&& 0xF0000000#32 = 0x90000000#32
    ∧ (15 : Int) < 16 ∧ (-1 : Int) < 0 := by decide

theorem witness_SetCharEffect : 0xA80000B0#32 &&& 0xF0000000#32 = 0xA0000000#32 := by decide

theorem witness_SetDotAndClearDotEffect : 0xB7E00000#32 &&& 0xF81FFFFF#32 = 0xB0000000#32
    ∧ 0xC7E00000#32 &&& 0xF81FFFFF#32 = 0xC0000000#32
    ∧ (good 8).buf[0]? = some 0x00#8 ∧ (good 8).buf[7]? = some 0x00#8
    ∧ ((good 8).digitCount : Int) ≤ 8 ∧ ((-1 : Int) < 0) := by decide

theorem witness_DotRoundTrips : (good 8).buf[0]? = some 0x00#8
    ∧ ({ good 1 with buf := [0xB0] } : State).buf[0]? = some 0xB0#8 := by decide

theorem witness_SetStringWritesItsCharacters : (good 8).legal
    ∧ ((6 : Int) ≤ (7 : Nat) ∧ ((7 : Nat) : Int) - 6 < ([0x48, 0x49, 0xB0] : List Nat).length)
    ∧ ¬ ((6 : Int) ≤ (5 : Nat)) ∧ 7 < (good 8).digitCount := by decide

theorem witness_SetStringExpansion : (good 8).legal ∧ ((-1 : Int) < 0) ∧ (63 : Int) < 64 := by decide

theorem witness_IndexedContentCommandFrame : (Instr.setMask 7 0x5A#8).contentIndex = some 7
    ∧ answers (.setMask 7 0x5A#8) (good 8) = true ∧ (good 8).outcomeAt 0 = .ok
    ∧ (Instr.clear 8).contentIndex = some 8 ∧ ¬ ((8 : Int) < (good 8).digitCount)
    ∧ answers (.clear 8) (good 8) = true := by decide

theorem witness_SingleRegisterCommandFrame : answers .powerOff (good 8) = true ∧ answers .testOn (good 8) = true
    ∧ answers .testOff (good 8) = true ∧ answers (.setBrightness 16) (good 8) = true
    ∧ answers (.setReverse true) (good 8) = true := by decide

theorem witness_MultiFrameCommandFrame : (good 2).legal ∧ answers .powerOn (good 2) = true
    ∧ answers .clearAll (good 2) = true ∧ ((0x03#8).toNat = 0 ∨ (good 2).digitCount < (0x03#8).toNat) := by decide

theorem witness_BlockRegistersHaveTheirWriters : answers (.frameDigit0 0x5A#8) (good 8) = true
    ∧ Instr.testOn.isContent = false ∧ Instr.testOn ≠ .powerOn ∧ (∀ flag, Instr.testOn ≠ .setReverse flag)
    ∧ answers .testOn (good 8) = true := by decide

theorem witness_FrameRowsSendTheirFrame : (Instr.frameDigit7 0xFF#8).frameRow = some ⟨0x08, 0xFF⟩
    ∧ (Instr.frameDecodeMode).frameRow = some ⟨0x09, 0x00⟩ ∧ (Instr.frameIntensity 15#4).frameRow = some ⟨0x0A, 0x0F⟩
    ∧ (Instr.frameScanLimit).frameRow = some ⟨0x0B, 0x07⟩ ∧ (Instr.frameShutdown true).frameRow = some ⟨0x0C, 0x01⟩
    ∧ (Instr.frameDisplayTest false).frameRow = some ⟨0x0F, 0x00⟩ := by decide

theorem witness_DigitMaskTable : digitMask (-1) = 0x00#8 ∧ digitMask 16 = 0x00#8 := by decide

/-- U+2103 is outside the three ranges and none of the seven characters. -/
theorem witness_CharMaskTable : ¬ ((0x30 : Int) ≤ 0x2103 ∧ (0x2103 : Int) ≤ 0x39)
    ∧ ¬ ((0x41 : Int) ≤ 0x2103 ∧ (0x2103 : Int) ≤ 0x5A) ∧ ¬ ((0x61 : Int) ≤ 0x2103 ∧ (0x2103 : Int) ≤ 0x7A)
    ∧ (0x2103 : Int) ∉ [0x2D, 0x5F, 0xB0, 0x5B, 0x28, 0x5D, 0x29] := by decide

theorem witness_DecimalPointIsComposedByOr : (6 : Nat) < 7 ∧ (-1 : Int) < 0 ∧ (15 : Int) < 16 := by decide

theorem witness_DotOperatorLaws : (0 : Nat) < 7 ∧ (6 : Nat) < 7 := by decide

theorem witness_DigitMasksHaveNoDotUnderDpClear : Config.digitLutDpClear (fun _ => 0x7F#8) := by decide

theorem witness_RemapIsABijection : phys 8 true 7 < 8 ∧ phys 1 true 0 < 1 ∧ phys 8 false 0 < 8 := by decide

theorem witness_ResetMeetsTheInvariant : Config.legalDigitCount 1 ∧ Config.legalDigitCount 8 := by decide

theorem witness_StepKeepsTheInvariant : (placeWord (.command 0x60000000#32) (State.resetWith 8)).Inv
    ∧ step (placeWord (.command 0x60000000#32) (State.resetWith 8)) = .next { State.resetWith 8 with reverse := false } :=
  ⟨⟨by decide, rfl, rfl, by decide, rfl, by decide, by decide, by decide⟩, rfl⟩

theorem witness_CommandsKeepTheControllerInvariant : (configuredState 8 0x01 0x00).legal
    ∧ (configuredState 8 0x01 0x00).ControllerInv ∧ answers .powerOff (configuredState 8 0x01 0x00) = true
    ∧ phase (configuredState 8 0x01 0x00).shadow ≠ .uninitialized := by decide

theorem witness_PhaseTransitions_u : Instr.testOn.isCommand = true ∧ (good 8).legal
    ∧ (good 8).ControllerInv ∧ (good 8).inCase .u
    ∧ answers .testOn (good 8) = true := by
  simp only [State.inCase]
  decide

theorem witness_PhaseTransitions_a : Instr.testOn.isCommand = true ∧ (configuredState 8 0x01 0x00).legal
    ∧ (configuredState 8 0x01 0x00).ControllerInv ∧ (configuredState 8 0x01 0x00).inCase .a
    ∧ answers .testOn (configuredState 8 0x01 0x00) = true := by
  simp only [State.inCase]
  decide

theorem witness_PhaseTransitions_t1 : Instr.testOn.isCommand = true ∧ (configuredState 8 0x01 0x01).legal
    ∧ (configuredState 8 0x01 0x01).ControllerInv ∧ (configuredState 8 0x01 0x01).inCase .t1
    ∧ answers .testOn (configuredState 8 0x01 0x01) = true := by
  simp only [State.inCase]
  decide

theorem witness_PhaseTransitions_t0 : Instr.testOn.isCommand = true ∧ (configuredState 8 0x00 0x01).legal
    ∧ (configuredState 8 0x00 0x01).ControllerInv ∧ (configuredState 8 0x00 0x01).inCase .t0
    ∧ answers .testOn (configuredState 8 0x00 0x01) = true := by
  simp only [State.inCase]
  decide

theorem witness_PhaseTransitions_s : Instr.testOn.isCommand = true ∧ (configuredState 8 0x00 0x00).legal
    ∧ (configuredState 8 0x00 0x00).ControllerInv ∧ (configuredState 8 0x00 0x00).inCase .s
    ∧ answers .testOn (configuredState 8 0x00 0x00) = true := by
  simp only [State.inCase]
  decide

theorem witness_EmittedFramesAreListed : Instr.powerOn.isCommand = true ∧ (good 1).legal
    ∧ answers .powerOn (good 1) = true := by decide

theorem witness_WordsAreTakenInOrderAndTheTraceOnlyGrows :
    step (placeWord (.command 0x60000000#32) (State.resetWith 8)) = .next { State.resetWith 8 with reverse := false }
    ∧ step State.reset = .next State.reset ∧ State.reset.port = [] := ⟨rfl, rfl, rfl⟩

theorem witness_GhostStateDoesNotInfluenceTheBlock :
    exec (.setReverse false) (good 8) = .next { good 8 with reverse := false } ∧ answers .powerOn (good 8) = true :=
  ⟨rfl, by decide⟩

theorem witness_ContentIsHiddenUnlessActive : (Instr.setMask 0 0x5A#8).isContent = true
    ∧ (Instr.setBrightness 3).isConfig = true ∧ (configuredState 8 0x01 0x01).legal
    ∧ phase (configuredState 8 0x01 0x01).shadow = .testOverlay ∧ phase (configuredState 8 0x00 0x00).shadow = .shutdown
    ∧ exec (.setMask 0 0x5A#8) (configuredState 8 0x00 0x00)
        = .next (afterMask 0 0x5A (configuredState 8 0x00 0x00))
    ∧ (afterMask 0 0x5A (configuredState 8 0x00 0x00)).status = .ok :=
  ⟨by decide, by decide, by decide, by decide, by decide, rfl, by decide⟩

theorem witness_ViewAfterPowerOn : (good 4).legal ∧ (good 4).allOk (5 + (good 4).digitCount)
    ∧ 3 < (good 4).digitCount ∧ (good 4).digitCount ≤ 4 := by decide

theorem witness_PositionsAboveNAreNeverWritten : (good 4).legal ∧ answers .powerOn (good 4) = true
    ∧ (good 4).digitCount ≤ 4 ∧ (good 4).digitCount ≤ 7 ∧ (good 4).shadow.read (0x01 + 4) = none := by decide

theorem witness_PlacedMaskIsShownWhenActive : (configuredState 8 0x01 0x00).legal
    ∧ 7 < (configuredState 8 0x01 0x00).digitCount ∧ phase (configuredState 8 0x01 0x00).shadow = .active
    ∧ (configuredState 8 0x01 0x00).outcomeAt 0 = .ok := by decide

theorem witness_AssemblingADecodedWord : decodeCommand 0xA80000B0#32 = .ok (.setChar 0 0xB0 true) := by decide

end Sys2Proof.Tests
end

section
/-! PROOFS. The scope family (00_scope.md R15): a step runs the decoded instruction, takes its word and no other, and
the trace only grows. -/

namespace Sys2Proof.Machine

/-! ### What a step does by what stands on the port -/

theorem accept_of_port_nil {s : State} (hp : s.port = []) : accept s = .idle := by
  simp [accept, hp]

theorem accept_of_decode {s : State} {p : PortWord} {rest : List PortWord} {i : Instr} (hp : s.port = p :: rest)
    (hd : decode p = .ok i) : accept s = .instr i (s.setPort rest) := by
  simp [accept, hp, hd]

theorem step_of_port_nil {s : State} (hp : s.port = []) : step s = .next s := by
  simp only [step, accept_of_port_nil hp]

theorem step_of_decode {s : State} {p : PortWord} {rest : List PortWord} {i : Instr} (hp : s.port = p :: rest)
    (hd : decode p = .ok i) : step s = exec i (s.setPort rest) := by
  simp only [step, accept_of_decode hp hd]

/-- Settles O7: the two things a word on the port, or none, makes the step do. -/
theorem stepRunsTheDecodedInstruction : Obligations.StepRunsTheDecodedInstruction :=
  ⟨fun _ _ _ _ hp hd => step_of_decode hp hd, fun _ hp => step_of_port_nil hp⟩

/-! ### Going on from a state: the waiting words as they were, frames only added -/

/-- `t` is reached from `s` without taking a word from the port and without losing an entry of the trace
(10_state.md R28, R31). -/
structure State.GoesOnTo (s t : State) : Prop where
  port_eq : t.port = s.port
  trace_grows : s.trace <+: t.trace

/-- A change of other fields only. -/
theorem State.GoesOnTo.of_eq {s t : State} (hp : t.port = s.port) (ht : t.trace = s.trace) : s.GoesOnTo t :=
  ⟨hp, ht ▸ List.prefix_rfl⟩

theorem State.GoesOnTo.trans {s t u : State} (h : s.GoesOnTo t) (h' : t.GoesOnTo u) : s.GoesOnTo u :=
  ⟨h'.port_eq.trans h.port_eq, h.trace_grows.trans h'.trace_grows⟩

/-- The same from a state that differs in other fields only. -/
theorem State.GoesOnTo.of_start_eq {s s' t : State} (h : s'.GoesOnTo t) (hp : s'.port = s.port)
    (ht : s'.trace = s.trace) : s.GoesOnTo t :=
  (State.GoesOnTo.of_eq hp ht).trans h

theorem andThen_goesOn {s : State} {p : Progress} {f : State → Progress} (hp : s.GoesOnTo p.state)
    (hf : ∀ t : State, t.GoesOnTo (f t).state) : s.GoesOnTo (p.andThen f).state := by
  cases p with
  | running t => exact hp.trans (hf t)
  | raised t => exact hp

/-! ### The shared operations -/

/-- The frame primitive adds its own frame to the trace, whatever the transport answers. -/
theorem writeRegister_goesOn (a d : Byte) (s : State) : s.GoesOnTo (writeRegister a d s).state := by
  rcases writeRegister_cases a d s with ⟨-, e⟩ | ⟨-, e⟩
  · rw [e]; exact ⟨rfl, List.prefix_append ..⟩
  · rw [e]; exact ⟨rfl, List.prefix_append ..⟩

theorem setMaskCore_goesOn (index : Int) (mask : Byte) (s : State) : s.GoesOnTo (setMaskCore index mask s).state := by
  unfold setMaskCore
  split
  · exact (writeRegister_goesOn ..).of_start_eq rfl rfl
  · exact .of_eq rfl rfl

theorem modifyMask_goesOn (index : Int) (f : Byte → Byte) (s : State) : s.GoesOnTo (modifyMask index f s).state := by
  unfold modifyMask
  split
  · split
    · exact setMaskCore_goesOn ..
    · exact .of_eq rfl rfl
  · exact .of_eq rfl rfl

/-- A list of actions goes on when each of its actions does. -/
theorem runSequence_goesOn (acts : List (State → Progress)) (hacts : ∀ act ∈ acts, ∀ t : State, t.GoesOnTo (act t).state)
    (s : State) : s.GoesOnTo (runSequence acts s).state := by
  induction acts generalizing s with
  | nil => exact .of_eq rfl rfl
  | cons act acts ih =>
    obtain ⟨hact, hrest⟩ := List.forall_mem_cons.mp hacts
    exact andThen_goesOn (hact s) fun t => (ih hrest _).of_start_eq rfl rfl

theorem runMultiFrame_goesOn (acts : List (State → Progress))
    (hacts : ∀ act ∈ acts, ∀ t : State, t.GoesOnTo (act t).state) (s : State) :
    s.GoesOnTo (runMultiFrame acts s).state :=
  andThen_goesOn ((runSequence_goesOn acts hacts _).of_start_eq rfl rfl) fun _ => .of_eq rfl rfl

theorem clearActions_goOn (n : Nat) : ∀ act ∈ clearActions n, ∀ t : State, t.GoesOnTo (act t).state := by
  intro act hact t
  obtain ⟨i, -, rfl⟩ := List.mem_map.mp hact
  exact setMaskCore_goesOn ..

theorem powerOnActions_goOn (n : Nat) : ∀ act ∈ powerOnActions n, ∀ t : State, t.GoesOnTo (act t).state := by
  intro act hact t
  simp only [powerOnActions, List.mem_append, List.mem_cons, List.not_mem_nil, or_false] at hact
  rcases hact with ((rfl | rfl | rfl | rfl) | hclear) | rfl
  · exact writeRegister_goesOn ..
  · exact writeRegister_goesOn ..
  · exact writeRegister_goesOn ..
  · exact writeRegister_goesOn ..
  · exact clearActions_goOn n act hclear t
  · exact writeRegister_goesOn ..

/-! ### Every instruction -/

theorem completeCommand_goesOn {s t : State} {p : Progress} (hp : s.GoesOnTo p.state)
    (h : completeCommand p = .next t) : s.GoesOnTo t := by
  cases h
  exact andThen_goesOn hp fun _ => .of_eq rfl rfl

theorem completeFrame_goesOn {s t : State} {p : Progress} (hp : s.GoesOnTo p.state)
    (h : completeFrame p = .next t) : s.GoesOnTo t := by
  cases h
  exact hp

/-- No instruction takes a word from the port or removes an entry of the trace. -/
theorem exec_goesOn {i : Instr} {s t : State} (h : exec i s = .next t) : s.GoesOnTo t := by
  cases i with
  | powerOn => exact completeCommand_goesOn (runMultiFrame_goesOn _ (powerOnActions_goOn _) s) h
  | clearAll => exact completeCommand_goesOn (runMultiFrame_goesOn _ (clearActions_goOn _) s) h
  | powerOff | testOn | testOff => exact completeCommand_goesOn (writeRegister_goesOn ..) h
  | setBrightness level =>
    refine completeCommand_goesOn ?_ h
    split
    · exact (writeRegister_goesOn ..).of_start_eq rfl rfl
    · exact .of_eq rfl rfl
  | setReverse flag => exact completeCommand_goesOn (.of_eq rfl rfl) h
  | clear | setDigit | setChar | setMask => exact completeCommand_goesOn (setMaskCore_goesOn ..) h
  | setDot | clearDot => exact completeCommand_goesOn (modifyMask_goesOn ..) h
  | frameDigit0 | frameDigit1 | frameDigit2 | frameDigit3 | frameDigit4 | frameDigit5 | frameDigit6 | frameDigit7
  | frameDecodeMode | frameIntensity | frameScanLimit | frameShutdown | frameDisplayTest =>
    exact completeFrame_goesOn (writeRegister_goesOn ..) h

/-- Settles O54: a step takes the head of the port, and the instruction it runs goes on from there. -/
theorem wordsAreTakenInOrderAndTheTraceOnlyGrows : Obligations.WordsAreTakenInOrderAndTheTraceOnlyGrows := by
  intro s t h
  rcases step_cases h with ⟨hp, rfl⟩ | ⟨p, rest, i, hp, -, hexec⟩
  · exact ⟨by simp [hp], ⟨[], by simp⟩, fun _ => rfl⟩
  · obtain ⟨hport, new, htrace⟩ := exec_goesOn hexec
    exact ⟨by simpa [hp] using hport, ⟨new, htrace.symm⟩, by simp [hp]⟩

end Sys2Proof.Machine
end

section
/-! PROOFS. The state family (10_state.md R20 to R23): the ghost state influences nothing else, and each register of the
block has its writers. -/

namespace Sys2Proof.Machine

/-! ### What holds of every action of a frame list -/

section
variable {P : (State → Progress) → Prop} (hmask : ∀ (index : Int) (mask : Byte), P (setMaskCore index mask))
include hmask

theorem forall_mem_clearActions (n : Nat) : ∀ act ∈ clearActions n, P act := by
  intro act hact
  obtain ⟨i, -, rfl⟩ := List.mem_map.mp hact
  exact hmask ..

theorem forall_mem_powerOnActions (hframe : ∀ a d : Byte, P (writeRegister a d))
    (hintensity : P fun s => writeRegister regIntensity (intensityData s.brightness) s) (n : Nat) :
    ∀ act ∈ powerOnActions n, P act := by
  intro act hact
  simp only [powerOnActions, List.mem_append, List.mem_cons, List.not_mem_nil, or_false] at hact
  rcases hact with ((rfl | rfl | rfl | rfl) | hclear) | rfl
  · exact hframe ..
  · exact hframe ..
  · exact hintensity
  · exact hframe ..
  · exact forall_mem_clearActions hmask n act hclear
  · exact hframe ..

end

/-! ### Two runs that differ in the ghost state only -/

/-- `u` is `t` but for the ghost state, and the run that began with the trace `b` has added to it the frames that the run
that began with the trace `a` has added to its own. -/
def State.GhostTwin (a b : List FrameRecord) (t u : State) : Prop :=
  ∃ (m : Memory) (new : List FrameRecord), t.trace = a ++ new ∧ u = (t.setShadow m).setTrace (b ++ new)

/-- Both runs still go on, or both were ended, in twin states. -/
inductive Progress.GhostTwin (a b : List FrameRecord) : Progress → Progress → Prop where
  | running {t u : State} (h : t.GhostTwin a b u) : Progress.GhostTwin a b (.running t) (.running u)
  | raised {t u : State} (h : t.GhostTwin a b u) : Progress.GhostTwin a b (.raised t) (.raised u)

/-- An action that takes twin states to twin progress: it reads no ghost state. -/
def GhostBlind (f : State → Progress) : Prop :=
  ∀ ⦃a b : List FrameRecord⦄ ⦃t u : State⦄, t.GhostTwin a b u → Progress.GhostTwin a b (f t) (f u)

section
variable {a b : List FrameRecord} {t u : State}

theorem State.GhostTwin.buf_eq (h : t.GhostTwin a b u) : u.buf = t.buf := by
  obtain ⟨m, new, -, rfl⟩ := h; rfl

theorem State.GhostTwin.brightness_eq (h : t.GhostTwin a b u) : u.brightness = t.brightness := by
  obtain ⟨m, new, -, rfl⟩ := h; rfl

theorem State.GhostTwin.reverse_eq (h : t.GhostTwin a b u) : u.reverse = t.reverse := by
  obtain ⟨m, new, -, rfl⟩ := h; rfl

theorem State.GhostTwin.seq_eq (h : t.GhostTwin a b u) : u.seq = t.seq := by
  obtain ⟨m, new, -, rfl⟩ := h; rfl

/-- A change that neither reads nor writes the ghost state keeps twins twins. -/
theorem State.GhostTwin.map {f : State → State} (h : t.GhostTwin a b u) (htrace : ∀ s, (f s).trace = s.trace)
    (hcomm : ∀ s m tr, f ((s.setShadow m).setTrace tr) = ((f s).setShadow m).setTrace tr) :
    (f t).GhostTwin a b (f u) := by
  obtain ⟨m, new, ht, rfl⟩ := h
  exact ⟨m, new, (htrace t).trans ht, hcomm ..⟩

theorem State.GhostTwin.setBuf (h : t.GhostTwin a b u) (v : List Byte) : (t.setBuf v).GhostTwin a b (u.setBuf v) :=
  h.map (f := (·.setBuf v)) (fun _ => rfl) fun _ _ _ => rfl

theorem State.GhostTwin.setSeq (h : t.GhostTwin a b u) (v : Nat) : (t.setSeq v).GhostTwin a b (u.setSeq v) :=
  h.map (f := (·.setSeq v)) (fun _ => rfl) fun _ _ _ => rfl

theorem Progress.GhostTwin.andThen {p q : Progress} {f : State → Progress} (hp : Progress.GhostTwin a b p q)
    (hf : GhostBlind f) : Progress.GhostTwin a b (p.andThen f) (q.andThen f) := by
  cases hp with
  | running h => exact hf h
  | raised h => exact .raised h

theorem Progress.GhostTwin.state {p q : Progress} (hp : Progress.GhostTwin a b p q) :
    p.state.GhostTwin a b q.state := by
  cases hp with
  | running h => exact h
  | raised h => exact h

end

/-! ### No operation reads the ghost state -/

theorem ghostBlind_running (f : State → State) (htrace : ∀ s, (f s).trace = s.trace)
    (hcomm : ∀ s m tr, f ((s.setShadow m).setTrace tr) = ((f s).setShadow m).setTrace tr) :
    GhostBlind fun s => .running (f s) :=
  fun _ _ _ _ h => .running (h.map htrace hcomm)

/-- The transport's answer is the same in twin states, and both traces gain the same entry. -/
theorem writeRegister_ghostBlind (addr d : Byte) : GhostBlind (writeRegister addr d) := by
  rintro a b t u ⟨m, new, ht, rfl⟩
  rcases writeRegister_cases addr d t with ⟨ho, e⟩ | ⟨ho, e⟩
  · rw [e, writeRegister_ok (s := (t.setShadow m).setTrace (b ++ new)) addr d ho]
    exact .running ⟨_, new ++ [⟨⟨addr, d⟩, .ok⟩], by simp [afterOk, ht],
      by rw [← List.append_assoc]; rfl⟩
  · rw [e, writeRegister_fail (s := (t.setShadow m).setTrace (b ++ new)) addr d ho]
    exact .raised ⟨_, new ++ [⟨⟨addr, d⟩, .fail⟩], by simp [afterFail, ht],
      by rw [← List.append_assoc]; rfl⟩

theorem setMaskCore_ghostBlind (index : Int) (mask : Byte) : GhostBlind (setMaskCore index mask) := by
  intro a b t u h
  simp only [setMaskCore, State.digitCount, h.buf_eq, h.reverse_eq]
  split
  · exact writeRegister_ghostBlind _ _ (h.setBuf _)
  · exact .running h

theorem modifyMask_ghostBlind (index : Int) (f : Byte → Byte) : GhostBlind (modifyMask index f) := by
  intro a b t u h
  simp only [modifyMask, State.digitCount, h.buf_eq]
  split
  · split
    · exact setMaskCore_ghostBlind _ _ h
    · exact .running h
  · exact .running h

theorem runSequence_ghostBlind {acts : List (State → Progress)} (hacts : ∀ act ∈ acts, GhostBlind act) :
    GhostBlind (runSequence acts) := by
  induction acts with
  | nil => exact fun _ _ _ _ h => .running h
  | cons act acts ih =>
    obtain ⟨hact, hrest⟩ := List.forall_mem_cons.mp hacts
    exact fun _ _ _ _ h => (hact h).andThen fun _ _ _ _ h' => ih hrest (h'.seq_eq ▸ h'.setSeq _)

/-- The frame list may depend on the digit count, which is no ghost state. -/
theorem runMultiFrame_ghostBlind {acts : Nat → List (State → Progress)} (hacts : ∀ n, ∀ act ∈ acts n, GhostBlind act) :
    GhostBlind fun s => runMultiFrame (acts s.digitCount) s := by
  intro a b t u h
  simp only [State.digitCount, h.buf_eq]
  exact (runSequence_ghostBlind (hacts _) (h.setSeq 0)).andThen
    (ghostBlind_running (·.setSeq 0) (fun _ => rfl) fun _ _ _ => rfl)

theorem clearActions_ghostBlind (n : Nat) : ∀ act ∈ clearActions n, GhostBlind act :=
  forall_mem_clearActions (P := GhostBlind) setMaskCore_ghostBlind n

theorem powerOnActions_ghostBlind (n : Nat) : ∀ act ∈ powerOnActions n, GhostBlind act := by
  refine forall_mem_powerOnActions (P := GhostBlind) setMaskCore_ghostBlind writeRegister_ghostBlind ?_ n
  intro a b t u h
  simp only [h.brightness_eq]
  exact writeRegister_ghostBlind _ _ h

/-! ### No instruction reads the ghost state -/

theorem completeCommand_ghostTwin {a b : List FrameRecord} {s u t : State} {f : State → Progress} (hf : GhostBlind f)
    (h : s.GhostTwin a b u) (ht : completeCommand (f s) = .next t) :
    ∃ v, completeCommand (f u) = .next v ∧ t.GhostTwin a b v := by
  cases ht
  have hend : GhostBlind fun s => .running (s.setStatus .ok) :=
    ghostBlind_running (·.setStatus .ok) (fun _ => rfl) fun _ _ _ => rfl
  exact ⟨_, rfl, ((hf h).andThen hend).state⟩

theorem completeFrame_ghostTwin {a b : List FrameRecord} {s u t : State} {f : State → Progress} (hf : GhostBlind f)
    (h : s.GhostTwin a b u) (ht : completeFrame (f s) = .next t) :
    ∃ v, completeFrame (f u) = .next v ∧ t.GhostTwin a b v := by
  cases ht
  exact ⟨_, rfl, (hf h).state⟩

/-- An instruction takes twin states to twin states. -/
theorem exec_ghostTwin {a b : List FrameRecord} {i : Instr} {s u t : State} (h : s.GhostTwin a b u)
    (ht : exec i s = .next t) : ∃ v, exec i u = .next v ∧ t.GhostTwin a b v := by
  cases i with
  | powerOn =>
    exact completeCommand_ghostTwin (f := fun s => runMultiFrame (powerOnActions s.digitCount) s)
      (runMultiFrame_ghostBlind powerOnActions_ghostBlind) h ht
  | clearAll =>
    exact completeCommand_ghostTwin (f := fun s => runMultiFrame (clearActions s.digitCount) s)
      (runMultiFrame_ghostBlind clearActions_ghostBlind) h ht
  | powerOff | testOn | testOff => exact completeCommand_ghostTwin (writeRegister_ghostBlind ..) h ht
  | setBrightness level =>
    refine completeCommand_ghostTwin (f := fun s => if levelInRange level then
      writeRegister regIntensity (intensityData (levelBits level)) (s.setBrightness (levelBits level))
      else .running s) ?_ h ht
    intro a b t u h
    split
    · exact writeRegister_ghostBlind _ _ (h.map (f := (·.setBrightness _)) (fun _ => rfl) fun _ _ _ => rfl)
    · exact .running h
  | setReverse flag =>
    exact completeCommand_ghostTwin (f := fun s => .running (s.setReverse flag))
      (ghostBlind_running _ (fun _ => rfl) fun _ _ _ => rfl) h ht
  | clear | setDigit | setChar | setMask => exact completeCommand_ghostTwin (setMaskCore_ghostBlind ..) h ht
  | setDot | clearDot => exact completeCommand_ghostTwin (modifyMask_ghostBlind ..) h ht
  | frameDigit0 | frameDigit1 | frameDigit2 | frameDigit3 | frameDigit4 | frameDigit5 | frameDigit6 | frameDigit7
  | frameDecodeMode | frameIntensity | frameScanLimit | frameShutdown | frameDisplayTest =>
    exact completeFrame_ghostTwin (writeRegister_ghostBlind ..) h ht

/-- Settles O55: the state with the changed ghost state is a twin of the original, and instructions keep twins. -/
theorem ghostStateDoesNotInfluenceTheBlock : Obligations.GhostStateDoesNotInfluenceTheBlock := by
  intro i s t m tr h
  have htwin : s.GhostTwin s.trace tr { s with shadow := m, trace := tr } :=
    ⟨m, [], (List.append_nil _).symm, by rw [List.append_nil]; rfl⟩
  obtain ⟨u, hu, m', new, htrace, rfl⟩ := exec_ghostTwin htwin h
  exact ⟨_, hu, rfl, rfl, rfl, rfl, rfl, rfl, rfl, rfl, rfl, rfl, new, htrace, rfl⟩

/-! ### What leaves the registers of the block as they were -/

/-- `t` has the brightness, the orientation and the digit count of `s`. -/
structure State.KeepsSettings (s t : State) : Prop where
  brightness_eq : t.brightness = s.brightness
  reverse_eq : t.reverse = s.reverse
  buf_length_eq : t.buf.length = s.buf.length

/-- `t` has the brightness, the orientation and the buffer of `s`. -/
structure State.KeepsRegisters (s t : State) : Prop where
  brightness_eq : t.brightness = s.brightness
  reverse_eq : t.reverse = s.reverse
  buf_eq : t.buf = s.buf

theorem State.KeepsRegisters.trans {s t u : State} (h : s.KeepsRegisters t) (h' : t.KeepsRegisters u) :
    s.KeepsRegisters u :=
  ⟨h'.brightness_eq.trans h.brightness_eq, h'.reverse_eq.trans h.reverse_eq, h'.buf_eq.trans h.buf_eq⟩

theorem State.KeepsRegisters.keepsSettings {s t : State} (h : s.KeepsRegisters t) : s.KeepsSettings t :=
  ⟨h.brightness_eq, h.reverse_eq, congrArg List.length h.buf_eq⟩

theorem State.KeepsSettings.trans {s t u : State} (h : s.KeepsSettings t) (h' : t.KeepsSettings u) :
    s.KeepsSettings u :=
  ⟨h'.brightness_eq.trans h.brightness_eq, h'.reverse_eq.trans h.reverse_eq,
    h'.buf_length_eq.trans h.buf_length_eq⟩

/-- The frame primitive writes no register of the block, whatever the transport answers. -/
theorem writeRegister_keepsRegisters (a d : Byte) (s : State) : s.KeepsRegisters (writeRegister a d s).state := by
  rcases writeRegister_cases a d s with ⟨-, e⟩ | ⟨-, e⟩
  · rw [e]; exact ⟨rfl, rfl, rfl⟩
  · rw [e]; exact ⟨rfl, rfl, rfl⟩

/-- Ending a command writes no register of the block. -/
theorem completeCommand_keepsRegisters {p : Progress} {t : State} (h : completeCommand p = .next t) :
    p.state.KeepsRegisters t := by
  cases h
  cases p with
  | running s => exact ⟨rfl, rfl, rfl⟩
  | raised s => exact ⟨rfl, rfl, rfl⟩

/-! ### What keeps brightness, orientation and digit count -/

theorem completeCommand_keepsSettings {s t : State} {p : Progress} (hp : s.KeepsSettings p.state)
    (h : completeCommand p = .next t) : s.KeepsSettings t :=
  hp.trans (completeCommand_keepsRegisters h).keepsSettings

theorem andThen_keepsSettings {s : State} {p : Progress} {f : State → Progress} (hp : s.KeepsSettings p.state)
    (hf : ∀ t : State, t.KeepsSettings (f t).state) : s.KeepsSettings (p.andThen f).state := by
  cases p with
  | running t => exact hp.trans (hf t)
  | raised t => exact hp

/-- The store replaces an entry of the buffer, so the digit count stays. -/
theorem setMaskCore_keepsSettings (index : Int) (mask : Byte) (s : State) :
    s.KeepsSettings (setMaskCore index mask s).state := by
  unfold setMaskCore
  split
  · have hstore : s.KeepsSettings (s.setBuf (s.buf.set index.toNat mask)) := ⟨rfl, rfl, List.length_set ..⟩
    exact hstore.trans (writeRegister_keepsRegisters ..).keepsSettings
  · exact ⟨rfl, rfl, rfl⟩

theorem modifyMask_keepsSettings (index : Int) (f : Byte → Byte) (s : State) :
    s.KeepsSettings (modifyMask index f s).state := by
  unfold modifyMask
  split
  · split
    · exact setMaskCore_keepsSettings ..
    · exact ⟨rfl, rfl, rfl⟩
  · exact ⟨rfl, rfl, rfl⟩

theorem setSeq_keepsSettings (s : State) (v : Nat) : s.KeepsSettings (s.setSeq v) := ⟨rfl, rfl, rfl⟩

theorem runSequence_keepsSettings {acts : List (State → Progress)}
    (hacts : ∀ act ∈ acts, ∀ t : State, t.KeepsSettings (act t).state) (s : State) :
    s.KeepsSettings (runSequence acts s).state := by
  induction acts generalizing s with
  | nil => exact ⟨rfl, rfl, rfl⟩
  | cons act acts ih =>
    obtain ⟨hact, hrest⟩ := List.forall_mem_cons.mp hacts
    exact andThen_keepsSettings (hact s) fun t => (setSeq_keepsSettings ..).trans (ih hrest _)

theorem runMultiFrame_keepsSettings {acts : List (State → Progress)}
    (hacts : ∀ act ∈ acts, ∀ t : State, t.KeepsSettings (act t).state) (s : State) :
    s.KeepsSettings (runMultiFrame acts s).state :=
  andThen_keepsSettings ((setSeq_keepsSettings ..).trans (runSequence_keepsSettings hacts _)) fun _ =>
    setSeq_keepsSettings ..

theorem clearActions_keepSettings (n : Nat) : ∀ act ∈ clearActions n, ∀ t : State, t.KeepsSettings (act t).state :=
  forall_mem_clearActions (P := fun act => ∀ t : State, t.KeepsSettings (act t).state) setMaskCore_keepsSettings n

theorem powerOnActions_keepSettings (n : Nat) : ∀ act ∈ powerOnActions n, ∀ t : State, t.KeepsSettings (act t).state :=
  forall_mem_powerOnActions (P := fun act => ∀ t : State, t.KeepsSettings (act t).state) setMaskCore_keepsSettings
    (fun a d t => (writeRegister_keepsRegisters a d t).keepsSettings)
    (fun _ => (writeRegister_keepsRegisters ..).keepsSettings) n

/-! ### The writers of the registers -/

/-- Of `brightness`, `reverse` and `buf`, only those `i` is a writer of differ between `s` and `t` (10_state.md R21 to
R23). -/
structure WritesOnlyItsRegisters (i : Instr) (s t : State) : Prop where
  brightness_eq : (∀ level, i ≠ .setBrightness level) → t.brightness = s.brightness
  reverse_eq : (∀ flag, i ≠ .setReverse flag) → t.reverse = s.reverse
  buf_eq : i.isContent = false → i ≠ .powerOn → t.buf = s.buf
  buf_length_eq : t.buf.length = s.buf.length

theorem WritesOnlyItsRegisters.of_keepsRegisters {i : Instr} {s t : State} (h : s.KeepsRegisters t) :
    WritesOnlyItsRegisters i s t :=
  ⟨fun _ => h.brightness_eq, fun _ => h.reverse_eq, fun _ _ => h.buf_eq, h.keepsSettings.buf_length_eq⟩

/-- A writer of the buffer may do all that keeps the settings. -/
theorem WritesOnlyItsRegisters.of_keepsSettings {i : Instr} {s t : State}
    (hi : i.isContent = true ∨ i = .powerOn) (h : s.KeepsSettings t) : WritesOnlyItsRegisters i s t :=
  ⟨fun _ => h.brightness_eq, fun _ => h.reverse_eq, fun hc hp => by simp [hc, hp] at hi, h.buf_length_eq⟩

/-- SET_BRIGHTNESS keeps every register but the brightness, which it may set. -/
theorem execSetBrightness_keeps {level : Int} {s t : State} (h : exec (.setBrightness level) s = .next t) :
    ∃ v, (s.setBrightness v).KeepsRegisters t := by
  have hp := completeCommand_keepsRegisters h
  split at hp
  · exact ⟨_, (writeRegister_keepsRegisters ..).trans hp⟩
  · exact ⟨s.brightness, hp⟩

/-- SET_REVERSE keeps every register but the orientation, which it sets. -/
theorem execSetReverse_keeps {flag : Bool} {s t : State} (h : exec (.setReverse flag) s = .next t) :
    (s.setReverse flag).KeepsRegisters t :=
  completeCommand_keepsRegisters h

theorem exec_writesOnlyItsRegisters {i : Instr} {s t : State} (h : exec i s = .next t) :
    WritesOnlyItsRegisters i s t := by
  cases i with
  | powerOn =>
    exact .of_keepsSettings (.inr rfl) <|
      completeCommand_keepsSettings (runMultiFrame_keepsSettings (powerOnActions_keepSettings _) s) h
  | clearAll =>
    exact .of_keepsSettings (.inl rfl) <|
      completeCommand_keepsSettings (runMultiFrame_keepsSettings (clearActions_keepSettings _) s) h
  | clear | setDigit | setChar | setMask =>
    exact .of_keepsSettings (.inl rfl) (completeCommand_keepsSettings (setMaskCore_keepsSettings ..) h)
  | setDot | clearDot =>
    exact .of_keepsSettings (.inl rfl) (completeCommand_keepsSettings (modifyMask_keepsSettings ..) h)
  | setBrightness level =>
    obtain ⟨v, hk⟩ := execSetBrightness_keeps h
    exact ⟨fun hne => absurd rfl (hne level), fun _ => hk.reverse_eq, fun _ _ => hk.buf_eq,
      hk.keepsSettings.buf_length_eq⟩
  | setReverse flag =>
    have hk := execSetReverse_keeps h
    exact ⟨fun _ => hk.brightness_eq, fun hne => absurd rfl (hne flag), fun _ _ => hk.buf_eq,
      hk.keepsSettings.buf_length_eq⟩
  | powerOff | testOn | testOff =>
    exact .of_keepsRegisters ((writeRegister_keepsRegisters ..).trans (completeCommand_keepsRegisters h))
  | frameDigit0 | frameDigit1 | frameDigit2 | frameDigit3 | frameDigit4 | frameDigit5 | frameDigit6 | frameDigit7
  | frameDecodeMode | frameIntensity | frameScanLimit | frameShutdown | frameDisplayTest =>
    cases h
    exact .of_keepsRegisters (writeRegister_keepsRegisters ..)

/-- Settles O40: each instruction writes its own registers only, and none takes a word from the port. -/
theorem blockRegistersHaveTheirWriters : Obligations.BlockRegistersHaveTheirWriters := by
  intro i s t h
  obtain ⟨hbrightness, hreverse, hbuf, hlength⟩ := exec_writesOnlyItsRegisters h
  exact ⟨hbrightness, hreverse, hbuf, hlength, (exec_goesOn h).port_eq⟩

end Sys2Proof.Machine
end

section
/-! PROOFS. The memory family (20_memory.md R50 to R60): what the frame primitive leaves, the frame rows, and the
remap of indices to positions. -/

namespace Sys2Proof.Machine

/-! ### What a sent frame leaves of the shadow (20_memory.md R50) -/

/-- A frame that succeeded makes its own address known, and leaves every other as it was. -/
theorem afterOk_known (f : Frame) (s : State) (x : Byte) :
    (afterOk f s).known x = if x = f.addr then some f.data else s.known x := by
  have hread : (afterOk f s).known x = if x.toNat = f.addr.toNat then some f.data else s.known x :=
    Memory.read_write ..
  simpa only [BitVec.toNat_inj] using hread

theorem afterFail_known (f : Frame) (s : State) (x : Byte) : (afterFail f s).known x = none := rfl

/-- Settles O11: by the transport's answer, the frame primitive leaves `afterOk` or raises with `afterFail`. -/
theorem writeRegisterEffect : Obligations.WriteRegisterEffect :=
  fun a d s => ⟨rfl,
    fun hok => ⟨_, writeRegister_ok a d hok, rfl, rfl, afterOk_known _ s, rfl, rfl, rfl, rfl, rfl, rfl⟩,
    fun hfail => ⟨_, writeRegister_fail a d hfail, rfl, rfl, afterFail_known _ s, rfl, rfl, rfl, rfl, rfl, rfl⟩⟩

/-- Settles O12: the one shadow entry the frame sets held its byte already. -/
theorem repeatedFrameIsIdempotent : Obligations.RepeatedFrameIsIdempotent := by
  intro a d s hknown hok
  refine ⟨_, writeRegister_ok a d hok, fun x => ?_, rfl⟩
  rw [afterOk_known]
  split
  · next hx => rw [hx, hknown]
  · rfl

/-! ### The frame rows -/

/-- The row `i` stands for the frame `f`: its word is the frame's, the frame is one of the table's, and running the row
sends the frame on its own (notes/assumptions/1.md). -/
structure SendsFrame (i : Instr) (f : Frame) : Prop where
  encode_eq : encode i = .frame f.word
  listed : f.listed = true
  exec_eq (s : State) : exec i s = completeFrame (writeRegister f.addr f.data s)

/-- Any byte of a digit register is listed; the other rows hold their data byte within the table's bounds by the type of
their operand. -/
theorem sendsFrame_of_frameRow {i : Instr} {f : Frame} (h : i.frameRow = some f) : SendsFrame i f := by
  cases i with
  | powerOn | powerOff | testOn | testOff | setBrightness | setReverse | clear | clearAll | setDigit | setChar
  | setDot | clearDot | setMask => cases h
  | frameDigit0 | frameDigit1 | frameDigit2 | frameDigit3 | frameDigit4 | frameDigit5 | frameDigit6 | frameDigit7
  | frameDecodeMode | frameScanLimit =>
    cases h
    exact ⟨rfl, rfl, fun _ => rfl⟩
  | frameIntensity level =>
    cases h
    exact ⟨rfl, by revert level; decide, fun _ => rfl⟩
  | frameShutdown bit | frameDisplayTest bit =>
    cases h
    cases bit with
    | false => exact ⟨rfl, rfl, fun _ => rfl⟩
    | true => exact ⟨rfl, rfl, fun _ => rfl⟩

/-- Settles O41: a frame row sends its frame, and a frame sent on its own leaves `afterFrame`. -/
theorem frameRowsSendTheirFrame : Obligations.FrameRowsSendTheirFrame := by
  intro i f s h
  obtain ⟨hencode, hlisted, hexec⟩ := sendsFrame_of_frameRow h
  exact ⟨hencode, hlisted, (hexec s).trans (completeFrame_writeRegister ..)⟩

/-! ### The remap (20_memory.md R58, R59) -/

/-- In either orientation the remap undoes itself. -/
theorem phys_phys {n i : Nat} (r : Bool) (h : i < n) : phys n r (phys n r i) = i := by
  cases r with
  | false => rfl
  | true =>
    show n - 1 - (n - 1 - i) = i
    omega

/-- Settles O48: position `p` has the one index `phys p`, since the remap is its own inverse. -/
theorem remapIsABijection : Obligations.RemapIsABijection := by
  intro n _ hn
  refine ⟨fun r i hi => ?_, fun r p hp => ?_, fun i hi => phys_phys true hi⟩
  · obtain ⟨hlow, hhigh⟩ := digitReg_range r hi hn
    exact ⟨phys_lt r hi, hlow, hhigh.trans hn⟩
  · refine ⟨phys n r p, ⟨phys_lt r hp, phys_phys r hp⟩, ?_⟩
    rintro j ⟨hj, rfl⟩
    exact (phys_phys r hj).symm

end Sys2Proof.Machine
end

section
/-! PROOFS. The encoding family (30_encoding.md R78): the frame as a 16-bit value and as the bits that leave the block. -/

namespace Sys2Proof.Machine

theorem byteBits_length (b : Byte) : (byteBits b).length = 8 := by
  simp [byteBits]

theorem byteBits_getElem? (b : Byte) {k : Nat} (hk : k < 8) : (byteBits b)[k]? = some (b.getLsbD (7 - k)) := by
  simp [byteBits, hk, BitVec.getMsbD]

theorem Frame.wireBits_eq (f : Frame) : f.wireBits = byteBits f.addr ++ byteBits f.data := by
  simp [Frame.wireBits, Frame.bytes]

theorem Frame.word_toNat (f : Frame) : f.word.toNat = 256 * f.addr.toNat + f.data.toNat := by
  rw [Frame.word, BitVec.toNat_append, ← Nat.shiftLeft_add_eq_or_of_lt f.data.isLt, Nat.shiftLeft_eq, Nat.mul_comm]

/-- Bit 15 - k of the value is bit 7 - k of the address for the first eight k, and then a bit of the data byte. -/
theorem Frame.wireBits_getElem? (f : Frame) {k : Nat} (hk : k < 16) :
    f.wireBits[k]? = some (f.word.getLsbD (15 - k)) := by
  rw [f.wireBits_eq, Frame.word, BitVec.getLsbD_append]
  by_cases haddr : k < 8
  · have hbit : 15 - k - 8 = 7 - k := by omega
    rw [List.getElem?_append_left (by rwa [byteBits_length]), byteBits_getElem? _ haddr, if_neg (by omega), hbit]
  · have hbit : 7 - (k - 8) = 15 - k := by omega
    rw [List.getElem?_append_right (by rw [byteBits_length]; omega), byteBits_length,
      byteBits_getElem? _ (by omega), if_pos (by omega), hbit]

/-- Settles O10: the address byte is the high half of the value and is sent first. -/
theorem frameWireForm : Obligations.FrameWireForm := fun f =>
  ⟨rfl, f.word_toNat, by rw [f.wireBits_eq, List.length_append, byteBits_length, byteBits_length],
    fun _ hk => f.wireBits_getElem? hk⟩

end Sys2Proof.Machine
end

section
/-! PROOFS. The lifecycle family (41_lifecycle.md R100 to R108): the frames of POWER_ON, what the lifecycle,
configuration and multi-frame commands leave unchanged, and what the display shows after them. -/

namespace Sys2Proof.Machine

/-! ### The frame list of POWER_ON -/

theorem length_powerOnFrames (s : State) : (powerOnFrames s).length = 5 + s.digitCount := by
  rw [← map_frame_powerOnData, List.length_map, length_powerOnData]

/-- After the four configuration frames come the clears and SHUTDOWN = 1. -/
theorem powerOnFrames_getElem?_add (s : State) (j : Nat) :
    (powerOnFrames s)[4 + j]? = (clearFrames s ++ [⟨0x0C, 0x01⟩])[j]? := by
  rw [Nat.add_comm]
  rfl

theorem length_clearFrames (s : State) : (clearFrames s).length = s.digitCount := by
  simp [clearFrames]

theorem clearFrames_getElem? {s : State} {k : Nat} (hk : k < s.digitCount) :
    (clearFrames s)[k]? = some ⟨digitReg s.digitCount s.reverse k, 0x00⟩ := by
  simp [clearFrames, hk]

/-- The register of the `k`-th clear, counted down from the highest when the display is reversed (41_lifecycle.md
R102). -/
theorem digitReg_eq_ofNat {n k : Nat} (r : Bool) (hk : k < n) :
    digitReg n r k = BitVec.ofNat 8 (if r then 0x01 + n - 1 - k else 0x01 + k) := by
  have hsum : 0x01 + phys n r k = if r then 0x01 + n - 1 - k else 0x01 + k := by
    unfold phys
    split
    · omega
    · rfl
  rw [← hsum, BitVec.ofNat_add]
  rfl

/-! ### The buffer along the frame list of POWER_ON -/

/-- Entries past the end of the buffer count for nothing. -/
theorem clearedBuf_congr {k l : Nat} {buf : List Byte} (h : min k buf.length = min l buf.length) :
    clearedBuf k buf = clearedBuf l buf := by
  have hdrop (j : Nat) : buf.drop j = buf.drop (min j buf.length) := by simp [List.drop_eq_drop_iff]
  rw [clearedBuf, clearedBuf, hdrop k, hdrop l, h]

theorem clearedBuf_zero (buf : List Byte) : clearedBuf 0 buf = buf := by
  simp [clearedBuf]

theorem storesOf_eq_self {l : List FrameAction} (hl : ∀ x ∈ l, x.store = id) (buf : List Byte) :
    storesOf l buf = buf := by
  induction l with
  | nil => rfl
  | cons x l ih =>
    obtain ⟨hx, hl⟩ := List.forall_mem_cons.mp hl
    rw [storesOf, List.foldl_cons, hx]
    exact ih hl

/-- Of the first `j` actions of POWER_ON the first four only send; each one after them clears one entry, in order, and the
last one again only sends. -/
theorem storesOf_take_powerOnData (s : State) (j : Nat) :
    storesOf ((powerOnData s).take j) s.buf = clearedBuf (j - 4) s.buf := by
  have hconfig (x) (hx : x ∈ [frameAction regDisplayTest 0x00, frameAction regDecodeMode 0x00, intensityAction s,
      frameAction regScanLimit 0x07].take j) : x.store = id := by
    have hmem := List.mem_of_mem_take hx
    simp only [List.mem_cons, List.not_mem_nil, or_false] at hmem
    rcases hmem with rfl | rfl | rfl | rfl <;> rfl
  have hshutdown (m : Nat) (x) (hx : x ∈ [frameAction regShutdown 0x01].take m) : x.store = id := by
    rw [List.mem_singleton.mp (List.mem_of_mem_take hx)]
    rfl
  rw [powerOnData, List.append_assoc, List.take_append, List.take_append, storesOf_append, storesOf_append,
    storesOf_eq_self hconfig, storesOf_eq_self (hshutdown _), ← List.map_take, List.take_range, storesOf_clearActions]
  exact clearedBuf_congr (by simp)

/-! ### POWER_ON as a multi-frame command -/

theorem exec_powerOn_eq (s : State) :
    exec .powerOn s = completeCommand (runMultiFrame ((powerOnData s).map (·.act)) s) := by
  rw [map_act_powerOnData]
  rfl

theorem powerOnData_ne_nil (s : State) : powerOnData s ≠ [] := List.cons_ne_nil _ _

/-- A POWER_ON whose frames all succeed (41_lifecycle.md R101). -/
theorem exec_powerOn_allOk {s : State} (hok : s.allOk (5 + s.digitCount)) : exec .powerOn s
    = .next { afterAllOk (powerOnFrames s) s with buf := List.replicate s.digitCount 0x00#8 } := by
  rw [← length_powerOnData] at hok
  have hstores : storesOf (powerOnData s) s.buf = List.replicate s.digitCount 0x00#8 := by
    rw [← List.take_length (l := powerOnData s), storesOf_take_powerOnData, length_powerOnData]
    have hN : s.digitCount = s.buf.length := rfl
    exact (clearedBuf_congr (by omega)).trans (clearedBuf_length s.buf)
  rw [exec_powerOn_eq, completeCommand_runMultiFrame_allOk _ s (powerOnData_sendsFor s) (powerOnData_ne_nil s) hok,
    map_frame_powerOnData, hstores]

/-- Settles O17: the run is that of the frame list as data; the list is read off at its four parts. -/
theorem powerOnSendsItsFrames : Obligations.PowerOnSendsItsFrames := by
  intro s _ hok
  refine ⟨exec_powerOn_allOk hok, length_powerOnFrames s, rfl, fun k hk => ?_, ?_⟩
  · rw [powerOnFrames_getElem?_add, List.getElem?_append_left (by rwa [length_clearFrames]), clearFrames_getElem? hk,
      digitReg_eq_ofNat _ hk]
  · rw [powerOnFrames_getElem?_add, ← length_clearFrames, List.getElem?_concat_length]

/-- Settles O19: the actions up to the failing one have stored what they store, and the failing one has stored too. -/
theorem powerOnStopsAtFailingFrame : Obligations.PowerOnStopsAtFailingFrame := by
  intro s k f hfails hk
  have hlt : k < 5 + s.digitCount := by
    rw [← length_powerOnFrames]
    exact (List.getElem?_eq_some_iff.mp hk).1
  rw [← map_frame_powerOnData, List.getElem?_map] at hk
  obtain ⟨x, hx, rfl⟩ := Option.map_eq_some_iff.mp hk
  have hbuf : storesOf ((powerOnData s).take (k + 1)) s.buf
      = if k < 4 then s.buf else clearedBuf (min (k - 4) (s.digitCount - 1) + 1) s.buf := by
    rw [storesOf_take_powerOnData]
    split
    · rw [show k + 1 - 4 = 0 by omega, clearedBuf_zero]
    · have hN : s.digitCount = s.buf.length := rfl
      exact clearedBuf_congr (by omega)
  rw [exec_powerOn_eq, completeCommand_runMultiFrame_failsAt _ k x s (powerOnData_sendsFor s) hx hfails, List.map_take,
    map_frame_powerOnData, hbuf]

/-! ### The words of the commands without operands -/

/-- A word that decodes to an instruction selects the instruction's row of the table (30_encoding.md R74). -/
theorem rowSelects_of_decodeCommand {w : Word} {i : Instr} (h : decodeCommand w = .ok i) :
    Laws.rowSelects i (.command w) = true := by
  unfold decodeCommand at h
  split at h
  case h_14 => cases h
  all_goals
    obtain ⟨hsel, rfl⟩ := acceptRow_ok.mp h
    exact hsel

/-- A row that fixes every bit is selected by its own word alone. -/
theorem eq_base_of_selects {base w : Word} (h : Pattern.selects ⟨base, 0xFFFFFFFF#32⟩ w = true) : w = base := by
  rw [Pattern.selects, beq_iff_eq] at h
  exact (BitVec.and_allOnes (x := w)).symm.trans h

/-- An instruction whose row fixes every bit has the one word of the row. -/
theorem decodeCommand_eq_ok_iff {i : Instr} {base : Word}
    (hrow : Laws.rowSelects i = Laws.commandRow ⟨base, 0xFFFFFFFF#32⟩) (hdec : decodeCommand base = .ok i) (w : Word) :
    decodeCommand w = .ok i ↔ w = base := by
  refine ⟨fun h => eq_base_of_selects ?_, fun h => h ▸ hdec⟩
  have hsel := rowSelects_of_decodeCommand h
  rwa [hrow] at hsel

/-! ### Commands that send one frame -/

/-- Settles O20: its row fixes every bit of the word, and its meaning is one frame. -/
theorem powerOffEffect : Obligations.PowerOffEffect :=
  ⟨decodeCommand_eq_ok_iff rfl (by decide), completeCommand_writeRegister _ _⟩

/-- Settles O21: as O20, for the two bytes of DISPLAY_TEST. -/
theorem testOnAndTestOffEffect : Obligations.TestOnAndTestOffEffect :=
  ⟨decodeCommand_eq_ok_iff rfl (by decide), decodeCommand_eq_ok_iff rfl (by decide),
    completeCommand_writeRegister _ _, completeCommand_writeRegister _ _⟩

/-! ### What a command that ends with OK leaves unchanged -/

/-- From `s` to `t` no frame has failed, and of the controller's registers only those in `R` may have been written
(10_state.md R27, R30). -/
structure State.TellsOnly (R : Byte → Prop) (s t : State) : Prop where
  faultSeen_eq : t.faultSeen = s.faultSeen
  known_eq : ∀ a, ¬ R a → t.known a = s.known a

theorem State.TellsOnly.mono {R Q : Byte → Prop} {s t : State} (h : s.TellsOnly R t) (hRQ : ∀ a, R a → Q a) :
    s.TellsOnly Q t :=
  ⟨h.faultSeen_eq, fun a ha => h.known_eq a (mt (hRQ a) ha)⟩

/-- No frame is sent. -/
theorem State.TellsOnly.of_eq {R : Byte → Prop} {s t : State} (hf : t.faultSeen = s.faultSeen)
    (hs : t.shadow = s.shadow) : s.TellsOnly R t :=
  ⟨hf, fun a _ => congrArg (Memory.read · a.toNat) hs⟩

/-- Frames that succeeded tell their own addresses. -/
theorem State.TellsOnly.of_told {R : Byte → Prop} {s t : State} {fs : List Frame} (hf : t.faultSeen = s.faultSeen)
    (hs : t.shadow = told fs s.shadow) (hR : ∀ f ∈ fs, R f.addr) : s.TellsOnly R t := by
  refine ⟨hf, fun a ha => ?_⟩
  rw [State.known, hs]
  refine told_read_other _ _ _ fun f hmem heq => ha ?_
  rw [← BitVec.toNat_inj.mp heq]
  exact hR f hmem

/-! ### Commands that send at most one frame -/

/-- A command that shows OK after its frame has sent it with success. -/
theorem afterCommandFrame_of_statusOk {f : Frame} {s : State} (hok : (afterCommandFrame f s).status = .ok) :
    afterCommandFrame f s = { afterOk f s with status := .ok } := by
  rcases afterCommandFrame_cases f s with ⟨-, e⟩ | ⟨-, e⟩
  · exact e
  · rw [e] at hok
    cases hok

theorem afterCommandFrame_tellsOnly {f : Frame} {s : State} (hok : (afterCommandFrame f s).status = .ok) :
    s.TellsOnly (· = f.addr) (afterCommandFrame f s) := by
  rw [afterCommandFrame_of_statusOk hok]
  exact .of_told (fs := [f]) rfl rfl (by simp)

theorem afterCommandFrame_seq {f : Frame} {s : State} (hok : (afterCommandFrame f s).status = .ok) :
    (afterCommandFrame f s).seq = s.seq := by
  rw [afterCommandFrame_of_statusOk hok]
  rfl

/-- A command that ended with OK has written no register of the controller but `a`, and has left the sequencer as it
was. -/
structure State.TellsOneRegister (a : Byte) (s t : State) : Prop where
  tellsOnly : s.TellsOnly (· = a) t
  seq_eq : t.seq = s.seq

theorem completeCommand_writeRegister_tellsOneRegister {a d : Byte} {s t : State}
    (h : completeCommand (writeRegister a d s) = .next t) (hok : t.status = .ok) : s.TellsOneRegister a t := by
  rw [completeCommand_writeRegister] at h
  cases h
  exact ⟨afterCommandFrame_tellsOnly hok, afterCommandFrame_seq hok⟩

/-- Out of range nothing is sent; in range the level is stored first, which is no register of the controller. -/
theorem exec_setBrightness_tellsOneRegister {level : Int} {s t : State} (h : exec (.setBrightness level) s = .next t)
    (hok : t.status = .ok) : s.TellsOneRegister regIntensity t := by
  change execSetBrightness level s = .next t at h
  unfold execSetBrightness at h
  split at h
  · obtain ⟨⟨hfault, hknown⟩, hseq⟩ := completeCommand_writeRegister_tellsOneRegister h hok
    exact ⟨⟨hfault, hknown⟩, hseq⟩
  · cases h
    exact ⟨.of_eq rfl rfl, rfl⟩

/-- Settles O38: the block's registers and the port by the rules for every instruction, the rest by the one frame. -/
theorem singleRegisterCommandFrame : Obligations.SingleRegisterCommandFrame := by
  intro i s t a hi h
  obtain ⟨hbrightness, hreverse, hbuf, -⟩ := exec_writesOnlyItsRegisters h
  have hkind : i.isContent = false ∧ i ≠ .powerOn := by
    rcases hi with ⟨rfl, -⟩ | ⟨rfl | rfl, -⟩ | ⟨⟨level, rfl⟩, -⟩ | ⟨⟨flag, rfl⟩, -⟩ <;> exact ⟨rfl, nofun⟩
  have htells (hok : t.status = .ok) : s.TellsOneRegister a t := by
    rcases hi with ⟨rfl, rfl⟩ | ⟨rfl | rfl, rfl⟩ | ⟨⟨level, rfl⟩, rfl⟩ | ⟨⟨flag, rfl⟩, rfl⟩
    · exact completeCommand_writeRegister_tellsOneRegister h hok
    · exact completeCommand_writeRegister_tellsOneRegister h hok
    · exact completeCommand_writeRegister_tellsOneRegister h hok
    · exact exec_setBrightness_tellsOneRegister h hok
    · cases h
      exact ⟨.of_eq rfl rfl, rfl⟩
  refine ⟨hbuf hkind.1 hkind.2, (exec_goesOn h).port_eq, hbrightness, hreverse, ?_, fun hok => ?_⟩
  · rintro ⟨flag, rfl⟩
    cases h
    exact ⟨rfl, rfl, rfl⟩
  · obtain ⟨⟨hfault, hknown⟩, hseq⟩ := htells hok
    exact ⟨hfault, hseq, hknown⟩

/-! ### Multi-frame commands -/

/-- What a multi-frame command leaves: the bus and the sequencer idle, and, if it shows OK, the registers outside its
frame list as they were. -/
structure State.SendsList (R : Byte → Prop) (s t : State) : Prop where
  csN_eq : t.csN = true
  seq_eq : t.seq = 0
  tellsOnly : t.status = .ok → s.TellsOnly R t

/-- Either every frame of the list succeeds, or the status shows the first that fails. -/
theorem completeCommand_runMultiFrame_sendsList {R : Byte → Prop} {l : List FrameAction} {s t : State}
    (hl : ∀ x ∈ l, x.SendsFor s) (hne : l ≠ []) (hR : ∀ f ∈ l.map (·.frame), R f.addr)
    (h : completeCommand (runMultiFrame (l.map (·.act)) s) = .next t) : s.SendsList R t := by
  rcases s.allOk_or_failsAt l.length with hok | ⟨k, hk, hfails⟩
  · rw [completeCommand_runMultiFrame_allOk l s hl hne hok] at h
    cases h
    exact ⟨rfl, rfl, fun _ => .of_told rfl rfl hR⟩
  · rw [completeCommand_runMultiFrame_failsAt l k _ s hl (List.getElem?_eq_getElem hk) hfails] at h
    cases h
    exact ⟨rfl, rfl, nofun⟩

/-- The digit registers of the positions below `n` (10_state.md R33). -/
abbrev isDigitRegBelow (n : Nat) (a : Byte) : Prop := 1 ≤ a.toNat ∧ a.toNat ≤ n

/-- The five registers POWER_ON names (41_lifecycle.md R100). -/
abbrev isPowerOnReg (a : Byte) : Prop := a = 0x0F ∨ a = 0x09 ∨ a = 0x0A ∨ a = 0x0B ∨ a = 0x0C

/-- The named registers lie above the digit registers (20_memory.md R57). -/
theorem lt_toNat_of_isPowerOnReg {a : Byte} (ha : isPowerOnReg a) : 8 < a.toNat := by
  rcases ha with rfl | rfl | rfl | rfl | rfl <;> decide

theorem clearFrames_isDigitRegBelow {s : State} (hl : s.legal) :
    ∀ f ∈ clearFrames s, isDigitRegBelow s.digitCount f.addr := fun _ hf => clearFrames_addr hl hf

theorem powerOnFrames_addr {s : State} (hl : s.legal) :
    ∀ f ∈ powerOnFrames s, isDigitRegBelow s.digitCount f.addr ∨ isPowerOnReg f.addr := by
  intro f hf
  simp only [powerOnFrames, List.mem_append, List.mem_cons, List.not_mem_nil, or_false] at hf
  rcases hf with ((rfl | rfl | rfl | rfl) | hclear) | rfl
  · exact .inr (.inl rfl)
  · exact .inr (.inr (.inl rfl))
  · exact .inr (.inr (.inr (.inl rfl)))
  · exact .inr (.inr (.inr (.inr (.inl rfl))))
  · exact .inl (clearFrames_isDigitRegBelow hl f hclear)
  · exact .inr (.inr (.inr (.inr (.inr rfl))))

theorem exec_powerOn_sendsList {s t : State} (hl : s.legal) (h : exec .powerOn s = .next t) :
    s.SendsList (fun a => isDigitRegBelow s.digitCount a ∨ isPowerOnReg a) t := by
  rw [exec_powerOn_eq] at h
  refine completeCommand_runMultiFrame_sendsList (powerOnData_sendsFor s) (powerOnData_ne_nil s) ?_ h
  rw [map_frame_powerOnData]
  exact powerOnFrames_addr hl

theorem exec_clearAll_eq (s : State) : exec .clearAll s
    = completeCommand (runMultiFrame (((List.range s.digitCount).map (clearAction s)).map (·.act)) s) := by
  rw [← clearActions_eq]
  rfl

theorem exec_clearAll_sendsList {s t : State} (hl : s.legal) (h : exec .clearAll s = .next t) :
    s.SendsList (isDigitRegBelow s.digitCount) t := by
  rw [exec_clearAll_eq] at h
  have hpos : s.digitCount ≠ 0 := Nat.one_le_iff_ne_zero.mp hl.1
  refine completeCommand_runMultiFrame_sendsList ?_ (by simpa using hpos) ?_ h
  · simp only [List.forall_mem_map, List.mem_range]
    exact fun i hi => clearAction_sendsFor s hi
  · rw [map_frame_clearActions]
    exact clearFrames_isDigitRegBelow hl

/-- Settles O39: the block's registers and the port by the rules for every instruction, the rest by the frame lists. -/
theorem multiFrameCommandFrame : Obligations.MultiFrameCommandFrame := by
  intro i s t hi hl h
  obtain ⟨hbrightness, hreverse, -, hlength⟩ := exec_writesOnlyItsRegisters h
  have hport := (exec_goesOn h).port_eq
  have houtside {a : Byte} (ha : a.toNat = 0 ∨ s.digitCount < a.toNat) : ¬ isDigitRegBelow s.digitCount a := by
    rintro ⟨hlow, hhigh⟩
    omega
  rcases hi with rfl | rfl
  · obtain ⟨hcs, hseq, htells⟩ := exec_powerOn_sendsList hl h
    refine ⟨hbrightness nofun, hreverse nofun, hport, hlength, hcs, hseq, fun hok => ?_⟩
    refine ⟨(htells hok).faultSeen_eq, fun a ha hne => (htells hok).known_eq a (not_or.mpr ⟨houtside ha, ?_⟩)⟩
    simpa only [isPowerOnReg, not_or] using hne rfl
  · obtain ⟨hcs, hseq, htells⟩ := exec_clearAll_sendsList hl h
    refine ⟨hbrightness nofun, hreverse nofun, hport, hlength, hcs, hseq, fun hok => ?_⟩
    exact ⟨(htells hok).faultSeen_eq, fun a ha _ => (htells hok).known_eq a (houtside ha)⟩

/-! ### Content and configuration commands -/

/-- A command over the SET_MASK core tells a digit register of a position below the digit count, or nothing. -/
theorem completeCommand_setMaskCore_tellsOnly {index : Int} {mask : Byte} {s t : State} (hl : s.legal)
    (h : completeCommand (setMaskCore index mask s) = .next t) (hok : t.status = .ok) :
    s.TellsOnly (isDigitRegBelow s.digitCount) t := by
  unfold setMaskCore at h
  split at h
  · next hrange =>
    obtain ⟨⟨hfault, hknown⟩, -⟩ := completeCommand_writeRegister_tellsOneRegister h hok
    refine State.TellsOnly.mono ⟨hfault, hknown⟩ ?_
    rintro a rfl
    exact digitReg_range s.reverse (by omega) hl.2
  · cases h
    exact .of_eq rfl rfl

theorem completeCommand_modifyMask_tellsOnly {index : Int} {f : Byte → Byte} {s t : State} (hl : s.legal)
    (h : completeCommand (modifyMask index f s) = .next t) (hok : t.status = .ok) :
    s.TellsOnly (isDigitRegBelow s.digitCount) t := by
  unfold modifyMask at h
  split at h
  · split at h
    · exact completeCommand_setMaskCore_tellsOnly hl h hok
    · cases h
      exact .of_eq rfl rfl
  · cases h
    exact .of_eq rfl rfl

theorem exec_content_tellsOnly {i : Instr} {s t : State} (hi : i.isContent = true) (hl : s.legal)
    (h : exec i s = .next t) (hok : t.status = .ok) : s.TellsOnly (isDigitRegBelow s.digitCount) t := by
  cases i with
  | clearAll => exact (exec_clearAll_sendsList hl h).tellsOnly hok
  | clear | setDigit | setChar | setMask => exact completeCommand_setMaskCore_tellsOnly hl h hok
  | setDot | clearDot => exact completeCommand_modifyMask_tellsOnly hl h hok
  | powerOn | powerOff | testOn | testOff | setBrightness | setReverse | frameDigit0 | frameDigit1 | frameDigit2
  | frameDigit3 | frameDigit4 | frameDigit5 | frameDigit6 | frameDigit7 | frameDecodeMode | frameIntensity
  | frameScanLimit | frameShutdown | frameDisplayTest => cases hi

theorem exec_config_tellsOnly {i : Instr} {s t : State} (hi : i.isConfig = true) (h : exec i s = .next t)
    (hok : t.status = .ok) : s.TellsOnly (· = regIntensity) t := by
  cases i with
  | setBrightness => exact (exec_setBrightness_tellsOneRegister h hok).tellsOnly
  | setReverse =>
    cases h
    exact .of_eq rfl rfl
  | powerOn | powerOff | testOn | testOff | clear | clearAll | setDigit | setChar | setDot | clearDot | setMask
  | frameDigit0 | frameDigit1 | frameDigit2 | frameDigit3 | frameDigit4 | frameDigit5 | frameDigit6 | frameDigit7
  | frameDecodeMode | frameIntensity | frameScanLimit | frameShutdown | frameDisplayTest => cases hi

/-- Neither kind of command writes the registers that decide whether the digits show. -/
theorem exec_contentOrConfig_known {i : Instr} {s t : State} (hi : i.isContent = true ∨ i.isConfig = true)
    (hl : s.legal) (h : exec i s = .next t) (hok : t.status = .ok) {a : Byte}
    (ha : a = regDisplayTest ∨ a = regShutdown) : t.known a = s.known a := by
  rcases hi with hi | hi
  · refine (exec_content_tellsOnly hi hl h hok).known_eq a fun ⟨_, hhigh⟩ => ?_
    have hN : s.digitCount ≤ 8 := hl.2
    have haddr : 8 < a.toNat := lt_toNat_of_isPowerOnReg (by rcases ha with rfl | rfl <;> decide)
    omega
  · refine (exec_config_tellsOnly hi h hok).known_eq a ?_
    rcases ha with rfl | rfl <;> decide

/-! ### The display view (60_exceptions.md R190) -/

/-- What each phase says of DISPLAY_TEST and SHUTDOWN (10_state.md R40). -/
theorem phase_cases (m : Memory) : phase m = .uninitialized
    ∨ phase m = .testOverlay ∧ m.read regDisplayTest.toNat = some 0x01#8
    ∨ phase m = .active ∧ m.read regDisplayTest.toNat = some 0x00#8 ∧ m.read regShutdown.toNat = some 0x01#8
    ∨ phase m = .shutdown ∧ m.read regDisplayTest.toNat = some 0x00#8 ∧ m.read regShutdown.toNat = some 0x00#8 := by
  unfold phase
  split
  · exact .inl rfl
  · split
    · next htest => exact .inr (.inl ⟨rfl, htest⟩)
    · split
      · next hactive => exact .inr (.inr (.inl ⟨rfl, hactive⟩))
      · split
        · next hshut => exact .inr (.inr (.inr ⟨rfl, hshut⟩))
        · exact .inl rfl

/-- The values of DISPLAY_TEST and SHUTDOWN with which the digit registers do not show. -/
theorem hidden_of_phase {m : Memory} (h : phase m = .testOverlay ∨ phase m = .shutdown) :
    m.read regDisplayTest.toNat = some 0x01#8
    ∨ m.read regDisplayTest.toNat = some 0x00#8 ∧ m.read regShutdown.toNat = some 0x00#8 := by
  rcases phase_cases m with hp | ⟨-, htest⟩ | ⟨hp, -⟩ | ⟨-, hshut⟩
  · simp [hp] at h
  · exact .inl htest
  · simp [hp] at h
  · exact .inr hshut

theorem shown_of_phase {m : Memory} (h : phase m = .active) :
    m.read regDisplayTest.toNat = some 0x00#8 ∧ m.read regShutdown.toNat = some 0x01#8 := by
  rcases phase_cases m with hp | ⟨hp, -⟩ | ⟨-, hshown⟩ | ⟨hp, -⟩
  · simp [hp] at h
  · simp [hp] at h
  · exact hshown
  · simp [hp] at h

/-- In Test-Overlay and Shutdown the view depends on DISPLAY_TEST and SHUTDOWN only. -/
theorem view_congr_of_hidden {m m' : Memory} (h : phase m = .testOverlay ∨ phase m = .shutdown)
    (htest : m'.read regDisplayTest.toNat = m.read regDisplayTest.toNat)
    (hshut : m'.read regShutdown.toNat = m.read regShutdown.toNat) (p : Nat) : view m' p = view m p := by
  unfold view viewWith
  rw [htest, hshut]
  rcases hidden_of_phase h with h1 | h0
  · rw [if_pos h1, if_pos h1]
  · have hne : m.read regDisplayTest.toNat ≠ some 0x01#8 := by simp [h0.1]
    rw [if_neg hne, if_neg hne, if_pos h0, if_pos h0]

/-- Settles O56: the two registers the view then depends on are not written. -/
theorem contentIsHiddenUnlessActive : Obligations.ContentIsHiddenUnlessActive := by
  intro i s t p hi hl hphase h hok _
  exact view_congr_of_hidden hphase (exec_contentOrConfig_known hi hl h hok (.inl rfl))
    (exec_contentOrConfig_known hi hl h hok (.inr rfl)) p

/-! ### The controller after POWER_ON -/

/-- A register that frames which succeeded were sent to, all with the byte its address fixes, holds that byte. -/
theorem told_read_of_mem {byte : Byte → Byte} {fs : List Frame} (hdata : ∀ f ∈ fs, f.data = byte f.addr) {a : Byte}
    (ha : ∃ f ∈ fs, f.addr = a) (m : Memory) : (told fs m).read a.toNat = some (byte a) := by
  induction fs generalizing m with
  | nil => simp at ha
  | cons g fs ih =>
    obtain ⟨hg, hdata⟩ := List.forall_mem_cons.mp hdata
    show (told fs (m.write g.addr.toNat g.data)).read a.toNat = _
    by_cases hagain : ∃ f ∈ fs, f.addr = a
    · exact ih hdata hagain _
    · have hother : ∀ f ∈ fs, f.addr.toNat ≠ a.toNat := fun f hf heq => hagain ⟨f, hf, BitVec.toNat_inj.mp heq⟩
      obtain rfl : g.addr = a := by simpa [hagain] using ha
      rw [told_read_other _ _ _ hother, Memory.read_write_same, hg]

/-- The byte POWER_ON sends to each register it sends to (41_lifecycle.md R100). -/
def powerOnByte (s : State) (a : Byte) : Byte :=
  if a = 0x0A then s.brightness.setWidth 8 else if a = 0x0B then 0x07 else if a = 0x0C then 0x01 else 0x00

/-- No digit register is one of those with a byte of their own. -/
theorem powerOnByte_of_isDigitRegBelow {s : State} (hl : s.legal) {a : Byte} (ha : isDigitRegBelow s.digitCount a) :
    powerOnByte s a = 0x00 := by
  have hle : a.toNat ≤ 8 := ha.2.trans hl.2
  have hne (b : Byte) (hb : 8 < b.toNat) : a ≠ b := by
    rintro rfl
    omega
  rw [powerOnByte, if_neg (hne _ (by decide)), if_neg (hne _ (by decide)), if_neg (hne _ (by decide))]

theorem powerOnFrames_data {s : State} (hl : s.legal) : ∀ f ∈ powerOnFrames s, f.data = powerOnByte s f.addr := by
  intro f hf
  simp only [powerOnFrames, List.mem_append, List.mem_cons, List.not_mem_nil, or_false] at hf
  rcases hf with ((rfl | rfl | rfl | rfl) | hclear) | rfl
  · rfl
  · rfl
  · rfl
  · rfl
  · rw [powerOnByte_of_isDigitRegBelow hl (clearFrames_isDigitRegBelow hl f hclear)]
    obtain ⟨i, -, rfl⟩ := List.mem_map.mp hclear
    rfl
  · rfl

theorem exists_mem_powerOnFrames_of_isPowerOnReg (s : State) {a : Byte} (ha : isPowerOnReg a) :
    ∃ f ∈ powerOnFrames s, f.addr = a := by
  rcases ha with rfl | rfl | rfl | rfl | rfl <;> simp [powerOnFrames]

/-- The remap reaches every position below the digit count, so each of their registers is cleared. -/
theorem exists_mem_clearFrames_of_isDigitRegBelow {s : State} (hl : s.legal) {a : Byte}
    (ha : isDigitRegBelow s.digitCount a) : ∃ f ∈ clearFrames s, f.addr = a := by
  obtain ⟨hlow, hhigh⟩ := ha
  have hp : a.toNat - 1 < s.digitCount := by omega
  have hi := phys_lt s.reverse hp
  refine ⟨_, List.mem_map_of_mem (List.mem_range.mpr hi), BitVec.toNat_inj.mp ?_⟩
  rw [digitReg_toNat _ hi hl.2, phys_phys _ hp]
  omega

theorem exists_mem_powerOnFrames_iff {s : State} (hl : s.legal) {a : Byte} :
    (∃ f ∈ powerOnFrames s, f.addr = a) ↔ isDigitRegBelow s.digitCount a ∨ isPowerOnReg a := by
  constructor
  · rintro ⟨f, hf, rfl⟩
    exact powerOnFrames_addr hl f hf
  · rintro (hdigit | hnamed)
    · obtain ⟨f, hf, haddr⟩ := exists_mem_clearFrames_of_isDigitRegBelow hl hdigit
      exact ⟨f, by simp [powerOnFrames, hf], haddr⟩
    · exact exists_mem_powerOnFrames_of_isPowerOnReg s hnamed

/-- What the frames of POWER_ON leave of the controller, register by register. -/
theorem told_powerOnFrames_read {s : State} (hl : s.legal) (m : Memory) {a : Byte}
    (ha : isDigitRegBelow s.digitCount a ∨ isPowerOnReg a) :
    (told (powerOnFrames s) m).read a.toNat = some (powerOnByte s a) :=
  told_read_of_mem (powerOnFrames_data hl) ((exists_mem_powerOnFrames_iff hl).mpr ha) m

theorem phase_told_powerOnFrames {s : State} (hl : s.legal) (m : Memory) :
    phase (told (powerOnFrames s) m) = .active := by
  have hread {a : Byte} (ha : isPowerOnReg a) := told_powerOnFrames_read hl m (.inr ha)
  have hconf : configured (told (powerOnFrames s) m) :=
    ⟨hread (a := regDecodeMode) (by decide), hread (a := regScanLimit) (by decide),
      by rw [hread (a := regIntensity) (by decide)]; rfl⟩
  exact phase_of_configured hconf (hread (a := regDisplayTest) (by decide)) (hread (a := regShutdown) (by decide))

/-- In phase Active each position shows what its register is known to hold. -/
theorem view_of_active {m : Memory} (h : phase m = .active) (p : Nat) : view m p = m.read (0x01 + p) := by
  obtain ⟨hdecode, hscan, -⟩ := configured_of_phase (m := m) (by simp [h])
  obtain ⟨htest, hshut⟩ := shown_of_phase h
  rw [view, viewWith, htest, hshut, if_neg (by decide), if_neg (by decide), if_pos ⟨rfl, rfl, hdecode, hscan⟩]
  rfl

/-- The positions below the digit count are cleared, in either orientation. -/
theorem told_powerOnFrames_read_digit {s : State} (hl : s.legal) (m : Memory) {p : Nat} (hp : p < s.digitCount) :
    (told (powerOnFrames s) m).read (0x01 + p) = some 0x00#8 := by
  have hN : s.digitCount ≤ 8 := hl.2
  have haddr : (BitVec.ofNat 8 (0x01 + p)).toNat = 0x01 + p := Nat.mod_eq_of_lt (by omega)
  have hdigit : isDigitRegBelow s.digitCount (BitVec.ofNat 8 (0x01 + p)) := by omega
  have hread := told_powerOnFrames_read hl m (.inl hdigit)
  rwa [haddr, powerOnByte_of_isDigitRegBelow hl hdigit] at hread

/-- The positions from the digit count on are not sent to (70_reset_and_hazards.md R206). -/
theorem told_powerOnFrames_read_above {s : State} (hl : s.legal) (m : Memory) {p : Nat} (hp : s.digitCount ≤ p)
    (hp8 : p < 8) : (told (powerOnFrames s) m).read (0x01 + p) = m.read (0x01 + p) := by
  refine told_read_other _ _ _ fun f hf heq => ?_
  rcases powerOnFrames_addr hl f hf with ⟨-, hhigh⟩ | hnamed
  · omega
  · have := lt_toNat_of_isPowerOnReg hnamed
    omega

/-- Settles O57: the frames leave the phase Active, in which each position shows its register. -/
theorem viewAfterPowerOn : Obligations.ViewAfterPowerOn := by
  intro s hl hok
  have hactive := phase_told_powerOnFrames hl s.shadow
  refine ⟨_, exec_powerOn_allOk hok, hactive, fun p hp => ?_, fun p hp hp8 => ?_⟩
  · exact (view_of_active hactive p).trans (told_powerOnFrames_read_digit hl _ hp)
  · exact (view_of_active hactive p).trans (told_powerOnFrames_read_above hl _ hp hp8)

/-- Settles O18: the frames read brightness, orientation and digit count only, which are those of reset. -/
theorem powerOnFromReset : Obligations.PowerOnFromReset := by
  refine ⟨decodeCommand_eq_ok_iff rfl (by decide), fun s hs hok => ?_⟩
  have hN : s.digitCount = 8 := by rw [hs]; rfl
  have hl : s.legal := by rw [State.legal, hN]; decide
  rw [show 13 = 5 + s.digitCount by rw [hN]] at hok
  refine ⟨_, exec_powerOn_allOk hok, ?_, phase_told_powerOnFrames hl _, rfl⟩
  have htrace : s.trace = [] := by rw [hs]; rfl
  have hframes : powerOnFrames s = powerOnFrames State.reset := by rw [hs]; rfl
  have hwords : (powerOnFrames State.reset).map Frame.word = [0x0F00, 0x0900, 0x0A07, 0x0B07, 0x0800, 0x0700, 0x0600,
      0x0500, 0x0400, 0x0300, 0x0200, 0x0100, 0x0C01] := by decide
  rw [← hwords, ← hframes]
  simp [afterAllOk, htrace, okRecords]

end Sys2Proof.Machine
end

section
/-! PROOFS. The configuration family (42_configuration.md R120 to R124): what SET_BRIGHTNESS and SET_REVERSE store and
send, and the register the orientation gives to index 0. -/

namespace Sys2Proof.Machine

/-! ### From a row of the encoding table to its instruction (30_encoding.md R74) -/

/-- A row whose mask covers the opcode selects words of its own opcode only. -/
theorem opField_of_selects {p : Pattern} {w : Word} (hmask : opField p.mask = 0xF) (h : p.selects w = true) :
    opField w = opField p.base := by
  rw [Pattern.selects, beq_iff_eq] at h
  calc opField w = opField w &&& opField p.mask := by rw [hmask]; exact BitVec.and_allOnes.symm
    _ = opField (w &&& p.mask) := BitVec.extractLsb'_and.symm
    _ = opField p.base := by rw [h]

/-- A row decodes the words it selects when the decoder tries it at its opcode. -/
theorem rowDecodes_of_acceptRow {p : Pattern} {f : Word → Instr} (hmask : opField p.mask = 0xF)
    (hrow : ∀ w, opField w = opField p.base → decodeCommand w = acceptRow p w (f w)) : rowDecodes p.base p.mask f := by
  intro w hw
  have hsel : p.selects w = true := beq_iff_eq.mpr hw
  rw [hrow w (opField_of_selects hmask hsel)]
  exact acceptRow_ok.mpr ⟨hsel, rfl⟩

theorem rowDecodes_setBrightness :
    rowDecodes patSetBrightness.base patSetBrightness.mask fun w => .setBrightness (argOperand w) :=
  rowDecodes_of_acceptRow (by decide) fun w hop => by rw [decodeCommand, hop]; rfl

theorem rowDecodes_setReverse :
    rowDecodes patSetReverse.base patSetReverse.mask fun w => .setReverse (flagField w) :=
  rowDecodes_of_acceptRow (by decide) fun w hop => by rw [decodeCommand, hop]; rfl

/-! ### SET_BRIGHTNESS -/

/-- An in-range level keeps its value in the brightness register and in the data byte. -/
theorem intensityData_levelBits {level : Int} (h : levelInRange level) :
    intensityData (levelBits level) = BitVec.ofNat 8 level.toNat := by
  obtain ⟨hlow, hhigh⟩ := h
  apply BitVec.eq_of_toNat_eq
  simp only [intensityData, levelBits, BitVec.toNat_setWidth, BitVec.toNat_ofNat]
  omega

theorem exec_setBrightness_inRange {level : Int} (h : levelInRange level) (s : State) :
    exec (.setBrightness level) s
      = .next (afterCommandFrame ⟨0x0A, BitVec.ofNat 8 level.toNat⟩ (s.setBrightness (levelBits level))) := by
  show completeCommand (if levelInRange level then _ else _) = _
  rw [if_pos h, completeCommand_writeRegister, intensityData_levelBits h]
  rfl

theorem exec_setBrightness_outOfRange {level : Int} (h : ¬ levelInRange level) (s : State) :
    exec (.setBrightness level) s = .next { s with status := .ok } := by
  show completeCommand (if levelInRange level then _ else _) = _
  rw [if_neg h, completeCommand_running]

/-- Settles O22: the row's operand is its arg field, and the meaning splits on the range of the level. -/
theorem setBrightnessEffect : Obligations.SetBrightnessEffect := by
  refine ⟨rowDecodes_setBrightness, fun level s => ?_⟩
  split
  · next hrange => exact exec_setBrightness_inRange hrange s
  · next hrange => exact exec_setBrightness_outOfRange hrange s

/-- What SET_BRIGHTNESS of a level leaves when its frame succeeds. -/
structure State.BrightnessSent (level : Int) (s t : State) : Prop where
  brightness_eq : t.brightness = levelBits level
  known_eq : t.known 0x0A = some (BitVec.ofNat 8 level.toNat)
  trace_length : t.trace.length = s.trace.length + 1
  outcomeAt_eq : ∀ k, t.outcomeAt k = s.outcomeAt (k + 1)

theorem exec_setBrightness_sent {level : Int} {s : State} (h : levelInRange level) (hok : s.outcomeAt 0 = .ok) :
    ∃ t, exec (.setBrightness level) s = .next t ∧ s.BrightnessSent level t := by
  refine ⟨_, exec_setBrightness_inRange h s, ?_⟩
  rcases afterCommandFrame_cases ⟨0x0A, BitVec.ofNat 8 level.toNat⟩ (s.setBrightness (levelBits level)) with
    ⟨-, e⟩ | ⟨hfail, -⟩
  · rw [e]
    exact ⟨rfl, Memory.read_write_same .., List.length_append, State.outcomeAt_succ rfl rfl⟩
  · cases hok.symm.trans hfail

/-- Settles O23: each run leaves the same brightness and INTENSITY, whatever state it starts from. -/
theorem setBrightnessIsIdempotent : Obligations.SetBrightnessIsIdempotent := by
  intro level s hlow hhigh hok
  obtain ⟨t, ht, htsent⟩ := exec_setBrightness_sent ⟨hlow, hhigh⟩ (hok 0 (by decide))
  have hok' : t.outcomeAt 0 = .ok := (htsent.outcomeAt_eq 0).trans (hok 1 (by decide))
  obtain ⟨u, hu, husent⟩ := exec_setBrightness_sent ⟨hlow, hhigh⟩ hok'
  refine ⟨t, u, ht, hu, husent.brightness_eq.trans htsent.brightness_eq.symm,
    husent.known_eq.trans htsent.known_eq.symm, htsent.known_eq, htsent.trace_length, ?_⟩
  rw [husent.trace_length, htsent.trace_length]

/-! ### SET_REVERSE -/

theorem exec_setReverse_eq (flag : Bool) (s : State) :
    exec (.setReverse flag) s = .next { s with reverse := flag, status := .ok } := rfl

/-- The row of SET_REVERSE leaves the flag alone free, so its words differ in that bit only. -/
theorem eq_commandWord_of_decode_setReverse {w : Word} {flag : Bool} (h : decodeCommand w = .ok (.setReverse flag)) :
    w = commandWord 0x6 flag 0 0 := by
  have hsel : patSetReverse.selects w = true := rowSelects_of_decodeCommand h
  have hflag : flagField w = flag := by
    have hdec := (rowDecodes_setReverse w (beq_iff_eq.mp hsel)).symm.trans h
    injection hdec with hinstr
    injection hinstr
  obtain ⟨hop, -, hidx, harg⟩ :=
    (selects_fields patSetReverse 0xF 0x6 false false 0x3F 0 0x1FFFFF 0 (by decide) (by decide) w).mp hsel
  calc w = commandWord (opField w) (flagField w) (idxField w) (argField w) := (commandWord_fields w).symm
    _ = commandWord 0x6 flag 0 0 := commandWord_inj.mpr ⟨BitVec.and_allOnes.symm.trans hop, hflag,
      BitVec.and_allOnes.symm.trans hidx, BitVec.and_allOnes.symm.trans harg⟩

/-- Settles O24: the flag is the one free bit of the word, and no frame is sent. -/
theorem setReverseEffect : Obligations.SetReverseEffect := by
  refine ⟨fun w flag => ?_, exec_setReverse_eq⟩
  have hword : commandWord 0x6 flag 0 0 = if flag then 0x68000000#32 else 0x60000000#32 := by
    revert flag; decide
  rw [← hword]
  refine ⟨eq_commandWord_of_decode_setReverse, ?_⟩
  rintro rfl
  revert flag
  decide

/-! ### The register of index 0 -/

/-- A command that sends one frame adds it to the trace, whatever the transport answers. -/
theorem afterCommandFrame_trace (f : Frame) (s : State) :
    (afterCommandFrame f s).trace = s.trace ++ [⟨f, s.outcomeAt 0⟩] := by
  rcases afterCommandFrame_cases f s with ⟨ho, e⟩ | ⟨ho, e⟩
  · rw [e, ho]; rfl
  · rw [e, ho]; rfl

/-- Placing a mask in range sends it to the register of its index. -/
theorem afterMask_trace {index : Int} (mask : Byte) {s : State} (h : indexInRange s.digitCount index) :
    (afterMask index mask s).trace
      = s.trace ++ [⟨⟨digitReg s.digitCount s.reverse index.toNat, mask⟩, s.outcomeAt 0⟩] := by
  rw [afterMask, if_pos h, afterCommandFrame_trace]
  rfl

/-- Settles O25: SET_MASK runs with the orientation just stored, which decides the register of index 0. -/
theorem reverseSelectsTheRegisterOfIndexZero : Obligations.ReverseSelectsTheRegisterOfIndexZero := by
  intro s flag m hl
  have hpos : 0 < s.digitCount := hl.1
  have hrange : indexInRange s.digitCount 0 := ⟨le_rfl, Int.natCast_pos.mpr hpos⟩
  refine ⟨afterMask 0 m { s with reverse := flag, status := .ok }, s.outcomeAt 0, ?_, ?_, ?_⟩
  · have hmask : exec (.setMask 0 m) { s with reverse := flag, status := .ok } = _ := completeCommand_setMaskCore 0 m _
    simp only [execAll, exec_setReverse_eq, hmask]
  · have hreg : digitReg s.digitCount flag 0 = BitVec.ofNat 8 (if flag then 0x01 + s.digitCount - 1 else 0x01) :=
      digitReg_eq_ofNat flag hpos
    rw [← hreg]
    exact afterMask_trace m hrange
  · rw [afterMask_buf, if_pos hrange]
    exact List.getElem?_set_self hpos

end Sys2Proof.Machine
end

section
/-! PROOFS. The encoder family (43_encoder.md R130 to R138): the masks of digits and of characters, for every table and
then for the model's own. -/

namespace Sys2Proof.Machine

/-! ### Digits (43_encoder.md R130, R131) -/

/-- What `DigitMask` answers for an integer: an entry of the table or the blank mask. -/
theorem digitMaskWith_cases (lut : Fin 16 → Byte) (digit : Int) :
    (∃ d : Fin 16, digit = d.val ∧ digitMaskWith lut digit = lut d)
      ∨ (digit < 0 ∨ 15 < digit) ∧ digitMaskWith lut digit = 0x00 := by
  by_cases h : 0 ≤ digit ∧ digit ≤ 15
  · obtain ⟨d, rfl⟩ := Int.eq_ofNat_of_zero_le h.1
    have hd : d < 16 := by omega
    exact .inl ⟨⟨d, hd⟩, rfl, digitMaskWith_inRange lut ⟨d, hd⟩⟩
  · exact .inr ⟨by omega, digitMaskWith_outOfRange lut h⟩

/-- Settles O42: the two cases of the digit encoder, at the model's own table. -/
theorem digitMaskTable : Obligations.DigitMaskTable :=
  ⟨digitMaskWith_inRange Config.digitLut, fun _ h => digitMaskWith_outOfRange Config.digitLut (by omega)⟩

/-- Settles O46: a digit's mask is an entry of the table, clear by the premise, or blank. -/
theorem digitMasksHaveNoDotUnderDpClear : Obligations.DigitMasksHaveNoDotUnderDpClear := by
  intro lut hclear digit
  rcases digitMaskWith_cases lut digit with ⟨d, -, hmask⟩ | ⟨-, hmask⟩
  · rw [hmask]; exact hclear d
  · rw [hmask]; rfl

/-! ### Characters (43_encoder.md R132 to R138) -/

section
variable (digits : Fin 16 → Byte) (letters : Fin 26 → Byte)

theorem charMaskWith_digit {d : Nat} (hd : d ≤ 9) :
    charMaskWith digits letters (0x30 + d) = digitMaskWith digits d := by
  have hdigit : (0x30 : Int) ≤ 0x30 + d ∧ (0x30 : Int) + d ≤ 0x39 := by omega
  rw [charMaskWith, if_pos hdigit, add_sub_cancel_left]

theorem charMaskWith_upper (k : Fin 26) : charMaskWith digits letters (0x41 + k.val) = letters k := by
  have hdigit : ¬ ((0x30 : Int) ≤ 0x41 + k.val ∧ (0x41 : Int) + k.val ≤ 0x39) := by omega
  have hupper : (0x41 : Int) ≤ 0x41 + k.val ∧ (0x41 : Int) + k.val ≤ 0x5A := by omega
  rw [charMaskWith, if_neg hdigit, if_pos hupper, add_sub_cancel_left, letterMaskWith_inRange]

theorem charMaskWith_lower (k : Fin 26) : charMaskWith digits letters (0x61 + k.val) = letters k := by
  have hdigit : ¬ ((0x30 : Int) ≤ 0x61 + k.val ∧ (0x61 : Int) + k.val ≤ 0x39) := by omega
  have hupper : ¬ ((0x41 : Int) ≤ 0x61 + k.val ∧ (0x61 : Int) + k.val ≤ 0x5A) := by omega
  have hlower : (0x61 : Int) ≤ 0x61 + k.val ∧ (0x61 : Int) + k.val ≤ 0x7A := by omega
  rw [charMaskWith, if_neg hdigit, if_neg hupper, if_pos hlower, add_sub_cancel_left, letterMaskWith_inRange]

theorem charMaskWith_blank {cp : Int} (hdigit : ¬ (0x30 ≤ cp ∧ cp ≤ 0x39)) (hupper : ¬ (0x41 ≤ cp ∧ cp ≤ 0x5A))
    (hlower : ¬ (0x61 ≤ cp ∧ cp ≤ 0x7A)) (hpunct : cp ∉ [0x2D, 0x5F, 0xB0, 0x5B, 0x28, 0x5D, 0x29]) :
    charMaskWith digits letters cp = 0x00 := by
  simp only [List.mem_cons, List.not_mem_nil, or_false, not_or] at hpunct
  obtain ⟨hminus, hunderscore, hdegree, hlbracket, hlparen, hrbracket, hrparen⟩ := hpunct
  rw [charMaskWith, if_neg hdigit, if_neg hupper, if_neg hlower, if_neg hminus, if_neg hunderscore, if_neg hdegree,
    if_neg (not_or.mpr ⟨hlbracket, hlparen⟩), if_neg (not_or.mpr ⟨hrbracket, hrparen⟩)]

end

/-- Settles O43: the cases of the character encoder at the model's own tables; the seven punctuation characters by
evaluation. -/
theorem charMaskTable : Obligations.CharMaskTable :=
  ⟨fun _ => charMaskWith_digit _ _,
    fun k => ⟨charMaskWith_upper _ _ k, charMaskWith_lower _ _ k⟩,
    rfl, rfl, rfl, rfl, rfl, rfl, rfl,
    fun _ => charMaskWith_blank _ _⟩

end Sys2Proof.Machine
end

section
/-! PROOFS. The content family (44_content.md R150 to R169): the mask each content command places, CLEAR_ALL, what the
commands leave unchanged, and which positions of the display they reach. -/

namespace Sys2Proof.Machine

/-! ### The words of the content commands (30_encoding.md R74) -/

theorem rowDecodes_clear : rowDecodes patClear.base patClear.mask fun w => .clear (indexOperand w) :=
  rowDecodes_of_acceptRow (by decide) fun w hop => by rw [decodeCommand, hop]; rfl

theorem rowDecodes_setDigit : rowDecodes patSetDigit.base patSetDigit.mask
    fun w => .setDigit (indexOperand w) (argOperand w) (flagField w) :=
  rowDecodes_of_acceptRow (by decide) fun w hop => by rw [decodeCommand, hop]; rfl

theorem rowDecodes_setChar : rowDecodes patSetChar.base patSetChar.mask
    fun w => .setChar (indexOperand w) (argOperand w) (flagField w) :=
  rowDecodes_of_acceptRow (by decide) fun w hop => by rw [decodeCommand, hop]; rfl

theorem rowDecodes_setDot : rowDecodes patSetDot.base patSetDot.mask fun w => .setDot (indexOperand w) :=
  rowDecodes_of_acceptRow (by decide) fun w hop => by rw [decodeCommand, hop]; rfl

theorem rowDecodes_clearDot : rowDecodes patClearDot.base patClearDot.mask fun w => .clearDot (indexOperand w) :=
  rowDecodes_of_acceptRow (by decide) fun w hop => by rw [decodeCommand, hop]; rfl

theorem rowDecodes_setMask :
    rowDecodes patSetMask.base patSetMask.mask fun w => .setMask (indexOperand w) (maskField w) :=
  rowDecodes_of_acceptRow (by decide) fun w hop => by rw [decodeCommand, hop]; rfl

/-! ### The state after a placed mask -/

theorem afterMask_outOfRange {index : Int} (mask : Byte) {s : State} (h : ¬ indexInRange s.digitCount index) :
    afterMask index mask s = { s with status := .ok } := if_neg h

theorem afterMask_inRange {index : Int} (mask : Byte) {s : State} (h : indexInRange s.digitCount index) :
    afterMask index mask s = afterCommandFrame ⟨digitReg s.digitCount s.reverse index.toNat, mask⟩
      { s with buf := s.buf.set index.toNat mask } := if_pos h

theorem indexInRange_natCast {n i : Nat} (h : i < n) : indexInRange n i :=
  ⟨Int.natCast_nonneg i, Int.ofNat_lt.mpr h⟩

theorem afterMask_buf_getElem?_self {i : Nat} (mask : Byte) {s : State} (h : i < s.digitCount) :
    (afterMask i mask s).buf[i]? = some mask := by
  rw [afterMask_buf, if_pos (indexInRange_natCast h)]
  exact List.getElem?_set_self h

theorem afterMask_buf_getElem?_ne {index : Int} (mask : Byte) (s : State) {j : Nat} (h : (j : Int) ≠ index) :
    (afterMask index mask s).buf[j]? = s.buf[j]? := by
  rw [afterMask_buf]
  split
  · exact List.getElem?_set_ne (by omega)
  · rfl

/-! ### SET_MASK, CLEAR, SET_DIGIT and SET_CHAR -/

theorem exec_setMask_eq (index : Int) (mask : Byte) (s : State) :
    exec (.setMask index mask) s = .next (afterMask index mask s) := completeCommand_setMaskCore ..

/-- Settles O28: CLEAR is the core at the mask 0x00. -/
theorem clearEffect : Obligations.ClearEffect :=
  ⟨rowDecodes_clear, fun _ _ => completeCommand_setMaskCore ..⟩

theorem exec_setDigit_eq (index digit : Int) (dot : Bool) (s : State) :
    exec (.setDigit index digit dot) s = .next (afterMask index (dotMux (digitMask digit) dot) s) :=
  completeCommand_setMaskCore ..

/-- A blank mask with a dot is the dot alone (43_encoder.md R140). -/
theorem dotMux_blank (dot : Bool) : dotMux 0x00 dot = if dot then 0x80 else 0x00 := by
  cases dot with
  | false => rfl
  | true => rfl

/-- Settles O31: the mask of the digit encoder, an entry of the table or blank, through the dot mux. -/
theorem setDigitEffect : Obligations.SetDigitEffect := by
  refine ⟨rowDecodes_setDigit, fun index d dot s => ?_, fun index digit dot s hdigit => ?_⟩
  · have hmask : digitMask d.val = Config.digitLut d := digitMaskWith_inRange _ d
    rw [exec_setDigit_eq, hmask]
    rfl
  · have hmask : digitMask digit = 0x00 := digitMaskWith_outOfRange _ (by omega)
    rw [exec_setDigit_eq, hmask, dotMux_blank]

/-- Settles O32: SET_CHAR is the core at the character's mask through the dot mux. -/
theorem setCharEffect : Obligations.SetCharEffect :=
  ⟨rowDecodes_setChar, fun _ _ _ _ => completeCommand_setMaskCore ..⟩

/-! ### Every indexed content command is the core at some mask -/

/-- Out of range the core places no mask, so any will do. -/
theorem modifyMask_eq_setMaskCore (index : Int) (f : Byte → Byte) (s : State) :
    ∃ mask, modifyMask index f s = setMaskCore index mask s := by
  by_cases h : indexInRange s.digitCount index
  · have hlt : index.toNat < s.digitCount := by omega
    exact ⟨_, modifyMask_inRange f h (List.getElem?_eq_getElem hlt)⟩
  · exact ⟨0x00, by rw [modifyMask_outOfRange f h, setMaskCore_outOfRange _ h]⟩

theorem exec_eq_setMaskCore {i : Instr} {index : Int} (h : i.contentIndex = some index) (s : State) :
    ∃ mask, exec i s = completeCommand (setMaskCore index mask s) := by
  cases i with
  | clear | setDigit | setChar | setMask =>
    cases h
    exact ⟨_, rfl⟩
  | setDot | clearDot =>
    cases h
    obtain ⟨mask, e⟩ := modifyMask_eq_setMaskCore index _ s
    exact ⟨mask, congrArg completeCommand e⟩
  | powerOn | powerOff | testOn | testOff | setBrightness | setReverse | clearAll | frameDigit0 | frameDigit1
  | frameDigit2 | frameDigit3 | frameDigit4 | frameDigit5 | frameDigit6 | frameDigit7 | frameDecodeMode
  | frameIntensity | frameScanLimit | frameShutdown | frameDisplayTest => cases h

theorem exec_eq_afterMask {i : Instr} {index : Int} (h : i.contentIndex = some index) (s : State) :
    ∃ mask, exec i s = .next (afterMask index mask s) := by
  obtain ⟨mask, e⟩ := exec_eq_setMaskCore h s
  exact ⟨mask, e.trans (completeCommand_setMaskCore ..)⟩

/-- Settles O27: out of range the core does the same for every mask. -/
theorem outOfRangeIndexIsNoOp : Obligations.OutOfRangeIndexIsNoOp := by
  intro i s index hi hout
  obtain ⟨mask, e⟩ := exec_eq_afterMask hi s
  rw [e, afterMask_outOfRange mask (by omega)]

theorem digitReg_eq_ofNat_phys (n : Nat) (r : Bool) (i : Nat) :
    digitReg n r i = BitVec.ofNat 8 (0x01 + phys n r i) := (BitVec.ofNat_add ..).symm

/-- Settles O26: SET_MASK in and out of range, and the core the content commands share. -/
theorem setMaskEffect : Obligations.SetMaskEffect := by
  refine ⟨rowDecodes_setMask, fun s i mask hi => ?_, fun s index mask => outOfRangeIndexIsNoOp (.setMask index mask) s
    index rfl, fun i s index hi => exec_eq_setMaskCore hi s, fun _ => rfl⟩
  rw [exec_setMask_eq, afterMask_inRange mask (indexInRange_natCast hi), digitReg_eq_ofNat_phys]
  rfl

/-! ### SET_DOT and CLEAR_DOT -/

/-- `i` replaces the mask stored at index `k` by its image under `f` (44_content.md R165, R168). -/
def ModifiesMask (i : Instr) (k : Nat) (f : Byte → Byte) : Prop :=
  ∀ (s : State) (b : Byte), s.buf[k]? = some b → exec i s = .next (afterMask k (f b) s)

theorem lt_digitCount_of_getElem? {s : State} {k : Nat} {b : Byte} (h : s.buf[k]? = some b) : k < s.digitCount :=
  (List.getElem?_eq_some_iff.mp h).1

theorem completeCommand_modifyMask {s : State} {k : Nat} {b : Byte} (f : Byte → Byte) (h : s.buf[k]? = some b) :
    completeCommand (modifyMask k f s) = .next (afterMask k (f b) s) := by
  have hrange := indexInRange_natCast (lt_digitCount_of_getElem? h)
  rw [modifyMask_inRange f hrange h, completeCommand_setMaskCore]

theorem setDot_modifiesMask (k : Nat) : ModifiesMask (.setDot k) k dotSet :=
  fun _ _ h => completeCommand_modifyMask dotSet h

theorem clearDot_modifiesMask (k : Nat) : ModifiesMask (.clearDot k) k dotClear :=
  fun _ _ h => completeCommand_modifyMask dotClear h

/-- Settles O33: in range the two operators on the stored mask, out of range the rule for every content command. -/
theorem setDotAndClearDotEffect : Obligations.SetDotAndClearDotEffect :=
  ⟨rowDecodes_setDot, rowDecodes_clearDot,
    fun s i b h => ⟨setDot_modifiesMask i s b h, clearDot_modifiesMask i s b h⟩,
    fun s index h => ⟨outOfRangeIndexIsNoOp (.setDot index) s index rfl h,
      outOfRangeIndexIsNoOp (.clearDot index) s index rfl h⟩⟩

/-- Two modifications of one mask compose, whatever the transport answers: each is stored before its frame is sent. -/
theorem ModifiesMask.execAll_two {i j : Instr} {k : Nat} {f g : Byte → Byte} (hi : ModifiesMask i k f)
    (hj : ModifiesMask j k g) {s : State} {b : Byte} (h : s.buf[k]? = some b) :
    ∃ t, execAll [i, j] s = .next t ∧ t.buf[k]? = some (g (f b)) := by
  have hstored := afterMask_buf_getElem?_self (f b) (lt_digitCount_of_getElem? h)
  refine ⟨_, ?_, afterMask_buf_getElem?_self (g (f b)) (lt_digitCount_of_getElem? hstored)⟩
  simp only [execAll, hi s b h, hj _ _ hstored]

/-! ### The operators on bit 7 (43_encoder.md R141) -/

theorem dotClear_dotSet (b : Byte) : dotClear (dotSet b) = dotClear b := by
  refine BitVec.eq_of_getLsbD_eq fun k _ => ?_
  rw [getLsbD_dotClear, getLsbD_dotSet, getLsbD_dotClear]
  by_cases h7 : k = 7 <;> simp [h7]

theorem dotSet_dotClear (b : Byte) : dotSet (dotClear b) = dotSet b := by
  refine BitVec.eq_of_getLsbD_eq fun k _ => ?_
  rw [getLsbD_dotSet, getLsbD_dotClear, getLsbD_dotSet]
  by_cases h7 : k = 7 <;> simp [h7]

theorem dotClear_eq_self_iff (b : Byte) : dotClear b = b ↔ b.getLsbD 7 = false := by
  constructor
  · intro h
    rw [← h, getLsbD_dotClear]
    simp
  · intro h
    refine BitVec.eq_of_getLsbD_eq fun k _ => ?_
    rw [getLsbD_dotClear]
    by_cases h7 : k = 7
    · rw [h7, h]; rfl
    · simp [h7]

/-- Settles O34: the two commands compose as the two operators do. -/
theorem dotRoundTrips : Obligations.DotRoundTrips := by
  intro s i b h
  refine ⟨?_, dotClear_eq_self_iff b, ?_, fun k hk => ?_⟩
  · obtain ⟨t, ht, hbuf⟩ := (setDot_modifiesMask i).execAll_two (clearDot_modifiesMask i) h
    exact ⟨t, ht, by rw [hbuf, dotClear_dotSet]; rfl⟩
  · obtain ⟨t, ht, hbuf⟩ := (clearDot_modifiesMask i).execAll_two (setDot_modifiesMask i) h
    exact ⟨t, ht, by rw [hbuf, dotSet_dotClear]; rfl⟩
  · have hbit := getLsbD_dotSet b k
    rwa [decide_eq_false (by omega), Bool.or_false] at hbit

/-! ### CLEAR_ALL -/

theorem clearActions_sendFor (s : State) : ∀ x ∈ (List.range s.digitCount).map (clearAction s), x.SendsFor s := by
  simp only [List.forall_mem_map, List.mem_range]
  exact fun i hi => clearAction_sendsFor s hi

/-- A CLEAR_ALL whose frames all succeed (44_content.md R157). -/
theorem exec_clearAll_allOk {s : State} (hl : s.legal) (hok : s.allOk s.digitCount) : exec .clearAll s
    = .next { afterAllOk (clearFrames s) s with buf := List.replicate s.digitCount 0x00#8 } := by
  have hpos : s.digitCount ≠ 0 := Nat.one_le_iff_ne_zero.mp hl.1
  have hstores : storesOf ((List.range s.digitCount).map (clearAction s)) s.buf = List.replicate s.digitCount 0x00#8 :=
    (storesOf_clearActions ..).trans (clearedBuf_length s.buf)
  rw [exec_clearAll_eq, completeCommand_runMultiFrame_allOk _ s (clearActions_sendFor s) (by simpa using hpos)
    (by simpa using hok), map_frame_clearActions, hstores]

/-- Settles O29: the run is that of the frame list as data. -/
theorem clearAllSendsItsFrames : Obligations.ClearAllSendsItsFrames := by
  refine ⟨decodeCommand_eq_ok_iff rfl (by decide), fun s hl hok => ?_⟩
  refine ⟨exec_clearAll_allOk hl hok, length_clearFrames s, fun k hk => ?_⟩
  rw [clearFrames_getElem? hk, digitReg_eq_ofNat_phys]
  rfl

/-- Settles O30: the clears up to the failing one have stored, and the failing one has stored too. -/
theorem clearAllStopsAtFailingFrame : Obligations.ClearAllStopsAtFailingFrame := by
  intro s k f hfails hk
  have hlt : k < s.digitCount := by
    rw [← length_clearFrames]
    exact (List.getElem?_eq_some_iff.mp hk).1
  obtain rfl : (clearAction s k).frame = f := Option.some.inj ((clearFrames_getElem? hlt).symm.trans hk)
  have hact : ((List.range s.digitCount).map (clearAction s))[k]? = some (clearAction s k) := by simp [hlt]
  have htake : ((List.range s.digitCount).map (clearAction s)).take (k + 1)
      = (List.range (k + 1)).map (clearAction s) := by
    rw [← List.map_take, List.take_range, Nat.min_eq_left hlt]
  rw [exec_clearAll_eq, completeCommand_runMultiFrame_failsAt _ k _ s (clearActions_sendFor s) hact hfails, htake,
    storesOf_clearActions, List.map_take, map_frame_clearActions]

/-! ### What an indexed content command leaves unchanged -/

/-- Out of range nothing is sent; in range the mask is stored first, which is no register of the controller. -/
theorem afterMask_tellsOneRegister {index : Int} {mask : Byte} {s : State}
    (hok : (afterMask index mask s).status = .ok) :
    s.TellsOneRegister (digitReg s.digitCount s.reverse index.toNat) (afterMask index mask s) := by
  by_cases h : indexInRange s.digitCount index
  · rw [afterMask_inRange mask h] at hok ⊢
    obtain ⟨hfault, hknown⟩ := afterCommandFrame_tellsOnly hok
    exact ⟨⟨hfault, hknown⟩, afterCommandFrame_seq hok⟩
  · rw [afterMask_outOfRange mask h]
    exact ⟨.of_eq rfl rfl, rfl⟩

theorem afterMask_of_outcomeOk {index : Int} (mask : Byte) {s : State} (h : indexInRange s.digitCount index)
    (hok : s.outcomeAt 0 = .ok) : afterMask index mask s
      = { afterOk ⟨digitReg s.digitCount s.reverse index.toNat, mask⟩
            { s with buf := s.buf.set index.toNat mask } with status := .ok } := by
  rw [afterMask_inRange mask h]
  rcases afterCommandFrame_cases ⟨digitReg s.digitCount s.reverse index.toNat, mask⟩
    { s with buf := s.buf.set index.toNat mask } with ⟨-, e⟩ | ⟨hfail, -⟩
  · exact e
  · cases hok.symm.trans hfail

/-- Settles O37: the block's registers and the port by the rules for every instruction, the rest by the placed mask. -/
theorem indexedContentCommandFrame : Obligations.IndexedContentCommandFrame := by
  intro i s t index hi h
  obtain ⟨hbrightness, hreverse, -, hlength⟩ := exec_writesOnlyItsRegisters h
  have hport := (exec_goesOn h).port_eq
  have hlevel (level) : i ≠ .setBrightness level := by rintro rfl; cases hi
  have hflag (flag) : i ≠ .setReverse flag := by rintro rfl; cases hi
  obtain ⟨mask, e⟩ := exec_eq_afterMask hi s
  obtain rfl : afterMask index mask s = t := Host.Outcome.next.inj (e.symm.trans h)
  refine ⟨hbrightness hlevel, hreverse hflag, hport, hlength, fun j hj => afterMask_buf_getElem?_ne mask s hj,
    fun hok => ?_, fun hout => ?_, fun hlow hhigh hok a ha => ?_⟩
  · obtain ⟨⟨hfault, -⟩, hseq⟩ := afterMask_tellsOneRegister hok
    exact ⟨hfault, hseq⟩
  · rw [afterMask_outOfRange mask hout]
    exact ⟨rfl, rfl, rfl⟩
  · have hstatus : (afterMask index mask s).status = .ok := by rw [afterMask_of_outcomeOk mask ⟨hlow, hhigh⟩ hok]
    exact (afterMask_tellsOneRegister hstatus).tellsOnly.known_eq a ha

/-! ### The positions from the digit count on (70_reset_and_hazards.md R206) -/

/-- If the command was ended, nothing is known of the controller (20_memory.md R50). -/
def Progress.ForgetsIfRaised (p : Progress) : Prop := ∀ t, p = .raised t → t.shadow = []

theorem Progress.forgetsIfRaised_running (s : State) : (Progress.running s).ForgetsIfRaised := nofun

theorem Progress.ForgetsIfRaised.andThen {p : Progress} {f : State → Progress} (hp : p.ForgetsIfRaised)
    (hf : ∀ s, (f s).ForgetsIfRaised) : (p.andThen f).ForgetsIfRaised := by
  cases p with
  | running s => exact hf s
  | raised s => exact hp

theorem writeRegister_forgetsIfRaised (a d : Byte) (s : State) : (writeRegister a d s).ForgetsIfRaised := by
  rcases writeRegister_cases a d s with ⟨-, e⟩ | ⟨-, e⟩
  · rw [e]; exact Progress.forgetsIfRaised_running _
  · rw [e]; rintro _ ⟨⟩; rfl

theorem setMaskCore_forgetsIfRaised (index : Int) (mask : Byte) (s : State) :
    (setMaskCore index mask s).ForgetsIfRaised := by
  unfold setMaskCore
  split
  · exact writeRegister_forgetsIfRaised _ _ _
  · exact Progress.forgetsIfRaised_running s

theorem runSequence_forgetsIfRaised {acts : List (State → Progress)}
    (hacts : ∀ act ∈ acts, ∀ s, (act s).ForgetsIfRaised) (s : State) : (runSequence acts s).ForgetsIfRaised := by
  induction acts generalizing s with
  | nil => exact Progress.forgetsIfRaised_running s
  | cons act acts ih =>
    obtain ⟨hact, hrest⟩ := List.forall_mem_cons.mp hacts
    exact (hact s).andThen fun t => ih hrest _

theorem runMultiFrame_forgetsIfRaised {acts : List (State → Progress)}
    (hacts : ∀ act ∈ acts, ∀ s, (act s).ForgetsIfRaised) (s : State) : (runMultiFrame acts s).ForgetsIfRaised :=
  (runSequence_forgetsIfRaised hacts _).andThen fun _ => Progress.forgetsIfRaised_running _

/-- A command that does not show OK has been ended by the exception. -/
theorem completeCommand_statusOk_or_forgets {p : Progress} {t : State} (hp : p.ForgetsIfRaised)
    (h : completeCommand p = .next t) : t.status = .ok ∨ t.shadow = [] := by
  cases p with
  | running s => cases h; exact .inl rfl
  | raised s => cases h; exact .inr (hp _ rfl)

theorem exec_indexed_statusOk_or_forgets {i : Instr} {index : Int} {s t : State} (h : exec i s = .next t)
    (hi : i.contentIndex = some index) : t.status = .ok ∨ t.shadow = [] := by
  obtain ⟨mask, e⟩ := exec_eq_setMaskCore hi s
  exact completeCommand_statusOk_or_forgets (setMaskCore_forgetsIfRaised index mask s) (e.symm.trans h)

theorem exec_command_statusOk_or_forgets {i : Instr} {s t : State} (hi : i.isCommand = true)
    (h : exec i s = .next t) : t.status = .ok ∨ t.shadow = [] := by
  cases i with
  | powerOn =>
    refine completeCommand_statusOk_or_forgets (runMultiFrame_forgetsIfRaised ?_ s) h
    exact forall_mem_powerOnActions (P := fun act => ∀ s, (act s).ForgetsIfRaised) setMaskCore_forgetsIfRaised
      writeRegister_forgetsIfRaised (fun _ => writeRegister_forgetsIfRaised _ _ _) _
  | clearAll =>
    refine completeCommand_statusOk_or_forgets (runMultiFrame_forgetsIfRaised ?_ s) h
    exact forall_mem_clearActions (P := fun act => ∀ s, (act s).ForgetsIfRaised) setMaskCore_forgetsIfRaised _
  | powerOff | testOn | testOff => exact completeCommand_statusOk_or_forgets (writeRegister_forgetsIfRaised _ _ _) h
  | setBrightness level =>
    refine completeCommand_statusOk_or_forgets ?_ h
    split
    · exact writeRegister_forgetsIfRaised _ _ _
    · exact Progress.forgetsIfRaised_running s
  | setReverse flag => exact completeCommand_statusOk_or_forgets (Progress.forgetsIfRaised_running _) h
  | clear index | setDigit index | setChar index | setMask index | setDot index | clearDot index =>
    exact exec_indexed_statusOk_or_forgets (index := index) h rfl
  | frameDigit0 | frameDigit1 | frameDigit2 | frameDigit3 | frameDigit4 | frameDigit5 | frameDigit6 | frameDigit7
  | frameDecodeMode | frameIntensity | frameScanLimit | frameShutdown | frameDisplayTest => cases hi

/-- A command writes digit registers of the positions below the digit count and the five named registers only. -/
theorem exec_command_tellsOnly {i : Instr} {s t : State} (hi : i.isCommand = true) (hl : s.legal)
    (h : exec i s = .next t) (hok : t.status = .ok) :
    s.TellsOnly (fun a => isDigitRegBelow s.digitCount a ∨ isPowerOnReg a) t := by
  cases i with
  | powerOn => exact (exec_powerOn_sendsList hl h).tellsOnly hok
  | powerOff | testOn | testOff =>
    refine (completeCommand_writeRegister_tellsOneRegister h hok).tellsOnly.mono ?_
    rintro a rfl
    exact .inr (by decide)
  | setBrightness | setReverse =>
    refine (exec_config_tellsOnly rfl h hok).mono ?_
    rintro a rfl
    exact .inr (by decide)
  | clear | clearAll | setDigit | setChar | setDot | clearDot | setMask =>
    exact (exec_content_tellsOnly rfl hl h hok).mono fun _ => .inl
  | frameDigit0 | frameDigit1 | frameDigit2 | frameDigit3 | frameDigit4 | frameDigit5 | frameDigit6 | frameDigit7
  | frameDecodeMode | frameIntensity | frameScanLimit | frameShutdown | frameDisplayTest => cases hi

/-- Settles O58: a command that shows OK has not written the register, and one that does not leaves nothing known. -/
theorem positionsAboveNAreNeverWritten : Obligations.PositionsAboveNAreNeverWritten := by
  intro i s t p hi hl h hp hp8 hnone
  rcases exec_command_statusOk_or_forgets hi h with hok | hforgets
  · have haddr : (BitVec.ofNat 8 (0x01 + p)).toNat = 0x01 + p := Nat.mod_eq_of_lt (by omega)
    have hother : ¬ (isDigitRegBelow s.digitCount (BitVec.ofNat 8 (0x01 + p))
        ∨ isPowerOnReg (BitVec.ofNat 8 (0x01 + p))) := by
      rintro (⟨-, hhigh⟩ | hnamed)
      · omega
      · have := lt_toNat_of_isPowerOnReg hnamed
        omega
    have hknown := (exec_command_tellsOnly hi hl h hok).known_eq _ hother
    rw [State.known, State.known, haddr] at hknown
    exact hknown.trans hnone
  · rw [hforgets]
    rfl

/-! ### The view of a placed mask -/

/-- The phase depends on the five named registers only (10_state.md R40). -/
theorem phase_congr {m m' : Memory} (h : ∀ a : Byte, isPowerOnReg a → m'.read a.toNat = m.read a.toNat) :
    phase m' = phase m := by
  unfold phase configured
  rw [h regDecodeMode (by decide), h regIntensity (by decide), h regScanLimit (by decide), h regShutdown (by decide),
    h regDisplayTest (by decide)]

theorem phase_write_digitReg (m : Memory) {n i : Nat} (r : Bool) (d : Byte) (hi : i < n) (hn : n ≤ 8) :
    phase (m.write (digitReg n r i).toNat d) = phase m := by
  refine phase_congr fun a ha => Memory.read_write_other _ _ ?_
  have hnamed := lt_toNat_of_isPowerOnReg ha
  have hdigit := (digitReg_range r hi hn).2
  omega

/-- Settles O59: the frame leaves the phase Active, in which the position shows what its register was just told. -/
theorem placedMaskIsShownWhenActive : Obligations.PlacedMaskIsShownWhenActive := by
  intro s i m hl hi hactive hok
  refine ⟨_, exec_setMask_eq i m s, ?_⟩
  rw [afterMask_of_outcomeOk m (indexInRange_natCast hi) hok]
  have hphase := (phase_write_digitReg s.shadow s.reverse m hi hl.2).trans hactive
  refine (view_of_active hphase _).trans ?_
  rw [← digitReg_toNat s.reverse hi hl.2, Memory.read_write_same]

end Sys2Proof.Machine
end

section
/-! PROOFS. The exceptions family (60_exceptions.md R180, R181, R185): every instruction ends in a next state. -/

namespace Sys2Proof.Machine

/-! ### Every instruction ends -/

/-- The end of a command's pseudocode and TransportFailure both leave a next state (60_exceptions.md R180, R181). -/
theorem completeCommand_answers_next (p : Progress) : ∃ t, completeCommand p = .next t := by
  cases p with
  | running s => exact ⟨_, completeCommand_running s⟩
  | raised s => exact ⟨_, completeCommand_raised s⟩

theorem exec_eq_completeCommand {i : Instr} (hi : i.isCommand = true) (s : State) :
    ∃ p, exec i s = completeCommand p := by
  cases i with
  | powerOn | powerOff | testOn | testOff | setBrightness | setReverse | clear | clearAll | setDigit | setChar | setDot
  | clearDot | setMask => exact ⟨_, rfl⟩
  | frameDigit0 | frameDigit1 | frameDigit2 | frameDigit3 | frameDigit4 | frameDigit5 | frameDigit6 | frameDigit7
  | frameDecodeMode | frameIntensity | frameScanLimit | frameShutdown | frameDisplayTest => cases hi

/-- What is no command is a frame row (notes/assumptions/1.md). -/
theorem exists_frameRow_of_not_isCommand {i : Instr} (hi : i.isCommand = false) : ∃ f, i.frameRow = some f := by
  cases i with
  | powerOn | powerOff | testOn | testOff | setBrightness | setReverse | clear | clearAll | setDigit | setChar | setDot
  | clearDot | setMask => cases hi
  | frameDigit0 | frameDigit1 | frameDigit2 | frameDigit3 | frameDigit4 | frameDigit5 | frameDigit6 | frameDigit7
  | frameDecodeMode | frameIntensity | frameScanLimit | frameShutdown | frameDisplayTest => exact ⟨_, rfl⟩

/-- Settles O16: a command completes, whether it ran to its end or was ended, and a frame row sends its frame. -/
theorem everyInstructionEnds : Obligations.EveryInstructionEnds := by
  intro i s
  cases hi : i.isCommand with
  | true =>
    obtain ⟨p, e⟩ := exec_eq_completeCommand hi s
    rw [e]
    exact completeCommand_answers_next p
  | false =>
    obtain ⟨f, hf⟩ := exists_frameRow_of_not_isCommand hi
    obtain ⟨-, -, hexec⟩ := frameRowsSendTheirFrame i f s hf
    exact ⟨_, hexec⟩

end Sys2Proof.Machine
end

section
/-! PROOFS. The decoder (30_encoding.md R71 to R79): the rows of the command table, the two round trips between words and
instructions, the refused words, and the assembler on decoded words. -/

namespace Sys2Proof.Machine

/-! ### The rows of the command table (30_encoding.md R74 to R76) -/

/-- Every word has the opcode of a row, which alone is tried, or a reserved opcode. -/
theorem decodeCommand_cases (w : Word) :
    (∃ p ∈ commandPatterns, opField w = opField p.base ∧ ∃ i, decodeCommand w = acceptRow p w i)
    ∨ (opField w = 0x0 ∨ opField w = 0xE ∨ opField w = 0xF) ∧ decodeCommand w = .error (.reservedOpcode w) := by
  unfold decodeCommand
  split
  case h_14 h1 h2 h3 h4 h5 h6 h7 h8 h9 hA hB hC hD =>
    simp only [imp_false] at h1 h2 h3 h4 h5 h6 h7 h8 h9 hA hB hC hD
    refine .inr ⟨?_, rfl⟩
    bv_omega
  all_goals
    next hop => exact .inl ⟨_, by decide, BitVec.eq_of_toNat_eq (hop.trans (by decide)), _, rfl⟩

/-- A reserved opcode is that of no row. -/
theorem opField_base_not_reserved : ∀ p ∈ commandPatterns,
    ¬ (opField p.base = 0x0 ∨ opField p.base = 0xE ∨ opField p.base = 0xF) := by decide

theorem decodeCommand_of_reserved {w : Word} (h : opField w = 0x0 ∨ opField w = 0xE ∨ opField w = 0xF) :
    decodeCommand w = .error (.reservedOpcode w) := by
  rcases decodeCommand_cases w with ⟨p, hp, hop, -⟩ | ⟨-, hdec⟩
  · rw [hop] at h
    exact absurd h (opField_base_not_reserved p hp)
  · exact hdec

theorem opField_mask : ∀ p ∈ commandPatterns, opField p.mask = 0xF := by decide

/-- Different rows have different opcodes. -/
theorem pattern_eq_of_opField_eq : ∀ p ∈ commandPatterns, ∀ q ∈ commandPatterns,
    opField p.base = opField q.base → p = q := by decide

theorem pattern_eq_of_selects {w : Word} {p q : Pattern} (hp : p ∈ commandPatterns) (hq : q ∈ commandPatterns)
    (hpw : p.selects w = true) (hqw : q.selects w = true) : p = q :=
  pattern_eq_of_opField_eq p hp q hq <|
    (opField_of_selects (opField_mask p hp) hpw).symm.trans (opField_of_selects (opField_mask q hq) hqw)

/-- A word selected by a row is decoded by it: its opcode is the row's, which is not reserved and no other row's. -/
theorem exists_decodeCommand_of_selects {w : Word} {p : Pattern} (hp : p ∈ commandPatterns) (hsel : p.selects w = true) :
    ∃ i, decodeCommand w = .ok i := by
  have hop := opField_of_selects (opField_mask p hp) hsel
  rcases decodeCommand_cases w with ⟨q, hq, hopq, i, hdec⟩ | ⟨hres, -⟩
  · obtain rfl := pattern_eq_of_opField_eq p hp q hq (hop.symm.trans hopq)
    exact ⟨i, hdec.trans (acceptRow_ok.mpr ⟨hsel, rfl⟩)⟩
  · rw [hop] at hres
    exact absurd hres (opField_base_not_reserved p hp)

theorem exists_selects_of_decodeCommand {w : Word} {i : Instr} (h : decodeCommand w = .ok i) :
    ∃ p ∈ commandPatterns, p.selects w = true := by
  rcases decodeCommand_cases w with ⟨p, hp, -, j, hdec⟩ | ⟨-, hdec⟩
  · exact ⟨p, hp, (acceptRow_ok.mp (hdec.symm.trans h)).1⟩
  · cases hdec.symm.trans h

/-- Settles O3: two rows that select a word have its opcode, and decoding tries the row of the opcode. -/
theorem commandRowsPartitionLegalWords : Obligations.CommandRowsPartitionLegalWords :=
  ⟨fun _ _ hp _ hq => pattern_eq_of_selects hp hq,
    fun _ => ⟨fun ⟨_, h⟩ => exists_selects_of_decodeCommand h, fun ⟨_, hp, h⟩ => exists_decodeCommand_of_selects hp h⟩⟩

/-! ### Refused words (60_exceptions.md R186) -/

theorem step_of_decode_error {s : State} {p : PortWord} {rest : List PortWord} {e : DecodeError}
    (hp : s.port = p :: rest) (hd : decode p = .error e) : step s = .refused (refusalOf e) := by
  have haccept : accept s = .illegal (refusalOf e) := by simp [accept, hp, hd]
  simp only [step, haccept]

/-- Settles O4: the decoder has no row for the three opcodes. -/
theorem reservedOpcodeRefused : Obligations.ReservedOpcodeRefused :=
  fun _ _ _ hport hop => step_of_decode_error hport (decodeCommand_of_reserved hop)

theorem acceptRow_of_not_selects {p : Pattern} {w : Word} (h : p.selects w = false) (i : Instr) :
    acceptRow p w i = .error (.unusedField w) := by
  simp [acceptRow, h]

/-- Settles O5: the one row that is tried does not select the word. -/
theorem unusedFieldRefused : Obligations.UnusedFieldRefused := by
  intro s w rest hport h0 hE hF hnone
  rcases decodeCommand_cases w with ⟨p, hp, -, i, hdec⟩ | ⟨hres, -⟩
  · exact step_of_decode_error hport (hdec.trans (acceptRow_of_not_selects (hnone p hp) i))
  · exact absurd hres (not_or.mpr ⟨h0, not_or.mpr ⟨hE, hF⟩⟩)

/-! ### Operands and fields -/

theorem indexFits_iff {index : Int} : indexFits index = true ↔ 0 ≤ index ∧ index ≤ 63 := by
  simp [indexFits]

theorem argFits_iff {arg : Int} : argFits arg = true ↔ 0 ≤ arg ∧ arg < 2097152 := by
  rw [argFits, Bool.and_eq_true, decide_eq_true_eq, decide_eq_true_eq]
  rfl

theorem idxBits_toNat {index : Int} (h : indexFits index = true) : ((idxBits index).toNat : Int) = index := by
  rw [indexFits_iff] at h
  rw [idxBits, BitVec.toNat_ofNat]
  omega

theorem argBits_toNat {arg : Int} (h : argFits arg = true) : ((argBits arg).toNat : Int) = arg := by
  rw [argFits_iff] at h
  rw [argBits, BitVec.toNat_ofNat]
  omega

theorem indexFits_indexOperand (w : Word) : indexFits (indexOperand w) = true := by
  have hlt := (idxField w).isLt
  rw [indexFits_iff, indexOperand]
  omega

theorem argFits_argOperand (w : Word) : argFits (argOperand w) = true := by
  have hlt := (argField w).isLt
  rw [argFits_iff, argOperand]
  omega

theorem idxBits_indexOperand (w : Word) : idxBits (indexOperand w) = idxField w := by
  simp [idxBits, indexOperand]

theorem argBits_argOperand (w : Word) : argBits (argOperand w) = argField w := by
  simp [argBits, argOperand]

theorem indexOperand_commandWord {index : Int} (h : indexFits index = true) (op : BitVec 4) (f : Bool) (a : BitVec 21) :
    indexOperand (commandWord op f (idxBits index) a) = index := by
  rw [indexOperand, idxField_commandWord, idxBits_toNat h]

theorem argOperand_commandWord {arg : Int} (h : argFits arg = true) (op : BitVec 4) (f : Bool) (i : BitVec 6) :
    argOperand (commandWord op f i (argBits arg)) = arg := by
  rw [argOperand, argField_commandWord, argBits_toNat h]

theorem maskField_commandWord_setWidth (op : BitVec 4) (f : Bool) (i : BitVec 6) (m : Byte) :
    maskField (commandWord op f i (m.setWidth 21)) = m := by
  rw [maskField_commandWord]
  simp

/-! ### Decoding an encoded instruction -/

theorem frameAddr_frameWord (a d : Byte) : frameAddr (frameWord a d) = a := (frameFields_frameWord a d).1

theorem frameData_frameWord (a d : Byte) : frameData (frameWord a d) = d := (frameFields_frameWord a d).2

/-- A row that decodes the words it selects decodes the encoding of its instruction, with the operands of that word. -/
theorem rowDecodes_encode {p : Pattern} {f : Word → Instr} {w : Word} {i : Instr} (hrow : rowDecodes p.base p.mask f)
    (hsel : p.selects w = true) (hf : f w = i) : decodeCommand w = .ok i :=
  hf ▸ hrow w (beq_iff_eq.mp hsel)

/-- Settles O1: the word selects the instruction's own row, and each operand is read back from its field. -/
theorem decodeOfEncode : Obligations.DecodeOfEncode := by
  intro i hwf
  cases i with
  | powerOn | powerOff | testOn | testOff | clearAll => decide
  | setBrightness level =>
    exact rowDecodes_encode rowDecodes_setBrightness (Laws.EncodedRow.setBrightness level)
      (by rw [argOperand_commandWord hwf])
  | setReverse flag =>
    exact rowDecodes_encode rowDecodes_setReverse (Laws.EncodedRow.setReverse flag) (by rw [flagField_commandWord])
  | clear index =>
    exact rowDecodes_encode rowDecodes_clear (Laws.EncodedRow.clear index) (by rw [indexOperand_commandWord hwf])
  | setDigit index digit dot =>
    obtain ⟨hindex, hdigit⟩ := (Bool.and_eq_true ..).mp hwf
    exact rowDecodes_encode rowDecodes_setDigit (Laws.EncodedRow.setDigit index digit dot)
      (by rw [indexOperand_commandWord hindex, argOperand_commandWord hdigit, flagField_commandWord])
  | setChar index cp dot =>
    obtain ⟨hindex, hcp⟩ := (Bool.and_eq_true ..).mp hwf
    exact rowDecodes_encode rowDecodes_setChar (Laws.EncodedRow.setChar index cp dot)
      (by rw [indexOperand_commandWord hindex, argOperand_commandWord hcp, flagField_commandWord])
  | setDot index =>
    exact rowDecodes_encode rowDecodes_setDot (Laws.EncodedRow.setDot index) (by rw [indexOperand_commandWord hwf])
  | clearDot index =>
    exact rowDecodes_encode rowDecodes_clearDot (Laws.EncodedRow.clearDot index) (by rw [indexOperand_commandWord hwf])
  | setMask index mask =>
    exact rowDecodes_encode rowDecodes_setMask (Laws.EncodedRow.setMask index mask)
      (by rw [indexOperand_commandWord hwf, maskField_commandWord_setWidth])
  | frameDigit0 | frameDigit1 | frameDigit2 | frameDigit3 | frameDigit4 | frameDigit5 | frameDigit6 | frameDigit7 =>
    simp only [encode, decode, decodeFrame, frameAddr_frameWord, frameData_frameWord]
    rfl
  | frameDecodeMode | frameScanLimit => decide
  | frameIntensity level => revert level; decide
  | frameShutdown bit | frameDisplayTest bit => revert bit; decide

/-! ### Encoding a decoded word -/

theorem commandWord_eq_iff {op : BitVec 4} {f : Bool} {i : BitVec 6} {a : BitVec 21} {w : Word} :
    commandWord op f i a = w ↔ op = opField w ∧ f = flagField w ∧ i = idxField w ∧ a = argField w := by
  conv_lhs => rw [← commandWord_fields w]
  exact commandWord_inj

/-- A row's word has the row's opcode, and zero in every field that the row's mask covers. -/
theorem fields_of_selects {p : Pattern} {w : Word} {op : BitVec 4} {f' : Bool} {i' : BitVec 6} {a' : BitVec 21}
    (hsel : p.selects w = true) (hm : p.mask = commandWord 0xF f' i' a') (hb : p.base = commandWord op false 0 0) :
    op = opField w ∧ (flagField w && f') = false ∧ idxField w &&& i' = 0 ∧ argField w &&& a' = 0 := by
  obtain ⟨hop, hrest⟩ := (selects_fields p 0xF op f' false i' 0 a' 0 hm hb w).mp hsel
  exact ⟨hop.symm.trans BitVec.and_allOnes, hrest⟩

/-- A row with the argument alone free (30_encoding.md R74, SET_BRIGHTNESS). -/
theorem commandWord_of_argumentRow {p : Pattern} {w : Word} {op : BitVec 4} (hsel : p.selects w = true)
    (hm : p.mask = commandWord 0xF true 0x3F 0) (hb : p.base = commandWord op false 0 0) :
    commandWord op false 0 (argBits (argOperand w)) = w := by
  rw [argBits_argOperand]
  obtain ⟨hop, hflag, hidx, -⟩ := fields_of_selects hsel hm hb
  exact commandWord_eq_iff.mpr
    ⟨hop, hflag.symm.trans (Bool.and_true _), hidx.symm.trans BitVec.and_allOnes, rfl⟩

/-- A row with the index alone free (CLEAR, SET_DOT, CLEAR_DOT). -/
theorem commandWord_of_indexRow {p : Pattern} {w : Word} {op : BitVec 4} (hsel : p.selects w = true)
    (hm : p.mask = commandWord 0xF true 0 0x1FFFFF) (hb : p.base = commandWord op false 0 0) :
    commandWord op false (idxBits (indexOperand w)) 0 = w := by
  rw [idxBits_indexOperand]
  obtain ⟨hop, hflag, -, harg⟩ := fields_of_selects hsel hm hb
  exact commandWord_eq_iff.mpr
    ⟨hop, hflag.symm.trans (Bool.and_true _), rfl, harg.symm.trans BitVec.and_allOnes⟩

/-- A row with every field free (SET_DIGIT, SET_CHAR). -/
theorem commandWord_of_fullRow {p : Pattern} {w : Word} {op : BitVec 4} (hsel : p.selects w = true)
    (hm : p.mask = commandWord 0xF false 0 0) (hb : p.base = commandWord op false 0 0) :
    commandWord op (flagField w) (idxBits (indexOperand w)) (argBits (argOperand w)) = w := by
  rw [idxBits_indexOperand, argBits_argOperand]
  exact commandWord_eq_iff.mpr ⟨(fields_of_selects hsel hm hb).1, rfl, rfl, rfl⟩

/-- An argument whose upper bits are zero is its mask byte. -/
theorem maskField_setWidth {w : Word} (h : argField w &&& 0x1FFF00 = 0) : (maskField w).setWidth 21 = argField w := by
  have hmask : maskField w = (argField w).setWidth 8 := by
    conv_lhs => rw [← commandWord_fields w]
    exact maskField_commandWord ..
  have hupper : ∀ k < 21, 8 ≤ k → (0x1FFF00 : BitVec 21).getLsbD k = true := by decide
  refine BitVec.eq_of_getLsbD_eq fun k hk => ?_
  rw [hmask, BitVec.getLsbD_setWidth, BitVec.getLsbD_setWidth]
  by_cases hlow : k < 8
  · simp [hk, hlow]
  · have hbit : (argField w &&& 0x1FFF00).getLsbD k = false := by rw [h]; exact BitVec.getLsbD_zero
    rw [BitVec.getLsbD_and, hupper k hk (Nat.le_of_not_lt hlow), Bool.and_true] at hbit
    simp [hlow, hbit]

theorem commandWord_of_maskRow {w : Word} (hsel : patSetMask.selects w = true) :
    commandWord 0xD false (idxBits (indexOperand w)) ((maskField w).setWidth 21) = w := by
  rw [idxBits_indexOperand]
  obtain ⟨hop, hflag, -, harg⟩ :=
    fields_of_selects (op := 0xD) (f' := true) (i' := 0) (a' := 0x1FFF00) hsel (by decide) (by decide)
  exact commandWord_eq_iff.mpr ⟨hop, hflag.symm.trans (Bool.and_true _), rfl, maskField_setWidth harg⟩

/-- The instruction of a word a row selects is the row's, with its operands read from the word. -/
theorem eq_of_rowDecodes {p : Pattern} {f : Word → Instr} {w : Word} {i : Instr} (hrow : rowDecodes p.base p.mask f)
    (hsel : p.selects w = true) (h : decodeCommand w = .ok i) : f w = i :=
  Except.ok.inj ((hrow w (beq_iff_eq.mp hsel)).symm.trans h)

/-- The instruction fits the port, and its word is `p`. -/
def EncodesTo (i : Instr) (p : PortWord) : Prop := i.WellFormed ∧ encode i = p

theorem encodesTo_of_decodeCommand {w : Word} {i : Instr} (h : decodeCommand w = .ok i) : EncodesTo i (.command w) := by
  have hsel := rowSelects_of_decodeCommand h
  cases i with
  | powerOn | powerOff | testOn | testOff | clearAll =>
    obtain rfl := eq_base_of_selects hsel
    exact ⟨rfl, by decide⟩
  | setBrightness level =>
    obtain ⟨⟩ := eq_of_rowDecodes rowDecodes_setBrightness hsel h
    exact ⟨argFits_argOperand w,
      congrArg PortWord.command (commandWord_of_argumentRow hsel (by decide) (by decide))⟩
  | setReverse flag => exact ⟨rfl, congrArg PortWord.command (eq_commandWord_of_decode_setReverse h).symm⟩
  | clear index =>
    obtain ⟨⟩ := eq_of_rowDecodes rowDecodes_clear hsel h
    exact ⟨indexFits_indexOperand w,
      congrArg PortWord.command (commandWord_of_indexRow hsel (by decide) (by decide))⟩
  | setDigit index digit dot =>
    obtain ⟨⟩ := eq_of_rowDecodes rowDecodes_setDigit hsel h
    exact ⟨(Bool.and_eq_true ..).mpr ⟨indexFits_indexOperand w, argFits_argOperand w⟩,
      congrArg PortWord.command (commandWord_of_fullRow hsel (by decide) (by decide))⟩
  | setChar index cp dot =>
    obtain ⟨⟩ := eq_of_rowDecodes rowDecodes_setChar hsel h
    exact ⟨(Bool.and_eq_true ..).mpr ⟨indexFits_indexOperand w, argFits_argOperand w⟩,
      congrArg PortWord.command (commandWord_of_fullRow hsel (by decide) (by decide))⟩
  | setDot index =>
    obtain ⟨⟩ := eq_of_rowDecodes rowDecodes_setDot hsel h
    exact ⟨indexFits_indexOperand w,
      congrArg PortWord.command (commandWord_of_indexRow hsel (by decide) (by decide))⟩
  | clearDot index =>
    obtain ⟨⟩ := eq_of_rowDecodes rowDecodes_clearDot hsel h
    exact ⟨indexFits_indexOperand w,
      congrArg PortWord.command (commandWord_of_indexRow hsel (by decide) (by decide))⟩
  | setMask index mask =>
    obtain ⟨⟩ := eq_of_rowDecodes rowDecodes_setMask hsel h
    exact ⟨indexFits_indexOperand w, congrArg PortWord.command (commandWord_of_maskRow hsel)⟩
  | frameDigit0 | frameDigit1 | frameDigit2 | frameDigit3 | frameDigit4 | frameDigit5 | frameDigit6 | frameDigit7
  | frameDecodeMode | frameIntensity | frameScanLimit | frameShutdown | frameDisplayTest => cases hsel

/-! ### Encoding a decoded frame word (30_encoding.md R79) -/

theorem acceptFrame_ok {b : Bool} {w : FrameWord} {i j : Instr} : acceptFrame b w i = .ok j ↔ b = true ∧ i = j := by
  unfold acceptFrame
  split <;> simp_all

/-- A frame word is put together from its own two bytes. -/
theorem frameWord_of_bytes {w : FrameWord} {a d : Byte} (ha : (frameAddr w).toNat = a.toNat) (hd : d = frameData w) :
    frameWord a d = w := by
  rw [← BitVec.toNat_inj.mp ha, hd]
  exact (BitVec.extractLsb'_append_extractLsb'_eq_extractLsb' rfl).trans BitVec.extractLsb'_eq_self

/-- A byte below 16 is its lower half. -/
theorem setWidth_lowNibble {d : Byte} (h : (d &&& 0xF0#8 == 0x00#8) = true) : (d.extractLsb' 0 4).setWidth 8 = d := by
  revert d; decide

/-- A byte below 2 is its lowest bit. -/
theorem setWidth_lowBit {d : Byte} (h : (d &&& 0xFE#8 == 0x00#8) = true) :
    (BitVec.ofBool (d.getLsbD 0)).setWidth 8 = d := by
  revert d; decide

theorem encodesTo_of_decodeFrame {w : FrameWord} {i : Instr} (h : decodeFrame w = .ok i) : EncodesTo i (.frame w) := by
  have hencode {j : Instr} {a d : Byte} (hwf : j.WellFormed) (hj : encode j = .frame (frameWord a d))
      (ha : (frameAddr w).toNat = a.toNat) (hd : d = frameData w) : EncodesTo j (.frame w) :=
    ⟨hwf, hj.trans (congrArg PortWord.frame (frameWord_of_bytes ha hd))⟩
  unfold decodeFrame at h
  split at h
  case h_9 ha =>
    obtain ⟨hd, rfl⟩ := acceptFrame_ok.mp h
    exact hencode rfl rfl ha (beq_iff_eq.mp hd).symm
  case h_10 ha =>
    obtain ⟨hd, rfl⟩ := acceptFrame_ok.mp h
    exact hencode rfl rfl ha (setWidth_lowNibble hd)
  case h_11 ha =>
    obtain ⟨hd, rfl⟩ := acceptFrame_ok.mp h
    exact hencode rfl rfl ha (beq_iff_eq.mp hd).symm
  case h_12 ha =>
    obtain ⟨hd, rfl⟩ := acceptFrame_ok.mp h
    exact hencode rfl rfl ha (setWidth_lowBit hd)
  case h_13 ha =>
    obtain ⟨hd, rfl⟩ := acceptFrame_ok.mp h
    exact hencode rfl rfl ha (setWidth_lowBit hd)
  case h_14 => cases h
  all_goals
    next ha =>
      cases h
      exact hencode rfl rfl ha rfl

/-- Settles O2: a word is its fields, of which a row fixes those it does not read as operands. -/
theorem encodeOfDecode : Obligations.EncodeOfDecode := by
  intro p i h
  cases p with
  | command w => exact encodesTo_of_decodeCommand h
  | frame w => exact encodesTo_of_decodeFrame h

/-! ### Fixed words, and the assembler on decoded words (30_encoding.md R85, R87) -/

/-- Settles O6: the decoder evaluated at each word. -/
theorem sampleWordsDecode : Obligations.SampleWordsDecode := by
  unfold Obligations.SampleWordsDecode
  decide

theorem assembleInstr_of_encode {i : Instr} {w : Word} (hwf : i.WellFormed) (he : encode i = .command w) :
    assembleInstr i = some w := by
  rw [assembleInstr, if_pos hwf, he]

/-- Settles O60: what a command word decodes to is encoded to the word (O2), which is all the assembler does. -/
theorem assemblingADecodedWord : Obligations.AssemblingADecodedWord := by
  intro w i h
  obtain ⟨hwf, hencode⟩ := encodesTo_of_decodeCommand h
  rw [assemble, assembleInstr_of_encode hwf hencode]
  rfl

end Sys2Proof.Machine
end

section
/-! PROOFS. What an instruction sends: the frames it adds to the trace and what they leave of the shadow, `fault_seen` and
`status` (10_state.md R27 to R31, 30_encoding.md R79, 60_exceptions.md R180 to R183), and the invariant of every step. -/

namespace Sys2Proof.Machine

/-! ### What a run of frames leaves -/

/-- No frame was sent between `s` and `t`: bus, sequencer, failure bit and ghost state are as they were. -/
structure State.Silent (s t : State) : Prop where
  csN_eq : t.csN = s.csN
  seq_eq : t.seq = s.seq
  faultSeen_eq : t.faultSeen = s.faultSeen
  shadow_eq : t.shadow = s.shadow
  trace_eq : t.trace = s.trace

/-- Between `s` and `t` the frames `sent` were sent with success, and an idle bus and sequencer are idle again. -/
structure State.Sends (s t : State) (sent : List Frame) : Prop where
  csIdle : s.csN = true → t.csN = true
  seqIdle : s.seq = 0 → t.seq = 0
  faultSeen_eq : t.faultSeen = s.faultSeen
  shadow_eq : t.shadow = told sent s.shadow
  trace_eq : t.trace = s.trace ++ okRecords sent

/-- Between `s` and `t` the frames `sent` were sent with success, then `f` failed and TransportFailure was taken
(60_exceptions.md R181). -/
structure State.SendsThenFails (s t : State) (sent : List Frame) (f : Frame) : Prop where
  csN_eq : t.csN = true
  seq_eq : t.seq = 0
  status_eq : t.status = .busError
  faultSeen_eq : t.faultSeen = true
  shadow_eq : t.shadow = []
  trace_eq : t.trace = s.trace ++ okRecords sent ++ [⟨f, .fail⟩]

/-- Everything a run from `s` to `t` can do that sends frames of `P` only, and shows `st` if they all succeed. -/
inductive State.Ran (P : Frame → Prop) (st : Status) (s t : State) : Prop where
  | ok (sent : List Frame) (hP : ∀ f ∈ sent, P f) (hst : t.status = st) (h : s.Sends t sent)
  | failed (sent : List Frame) (f : Frame) (hP : ∀ g ∈ sent, P g) (hf : P f) (h : s.SendsThenFails t sent f)

section
variable {P Q : Frame → Prop} {st : Status}

theorem State.Ran.mono {s t : State} (h : State.Ran P st s t) (hPQ : ∀ f, P f → Q f) : State.Ran Q st s t := by
  cases h with
  | ok sent hP hst h => exact .ok sent (fun f hf => hPQ f (hP f hf)) hst h
  | failed sent f hP hf h => exact .failed sent f (fun g hg => hPQ g (hP g hg)) (hPQ f hf) h

theorem State.Silent.sends {s t : State} (h : s.Silent t) : s.Sends t [] := by
  obtain ⟨hcs, hseq, hfault, hshadow, htrace⟩ := h
  exact ⟨hcs.trans, hseq.trans, hfault, hshadow, by simp [htrace, okRecords]⟩

theorem State.Silent.ran {s t : State} (h : s.Silent t) (hst : t.status = st) : State.Ran P st s t :=
  .ok [] (by simp) hst h.sends

/-- A run is also one from any state it differs from in the block's registers or the port only. -/
theorem State.Ran.of_silent {s r t : State} (h : State.Ran P st r t) (hr : s.Silent r) : State.Ran P st s t := by
  obtain ⟨hcs, hseq, hfault, hshadow, htrace⟩ := hr
  cases h with
  | ok sent hP hst h =>
    obtain ⟨hcs', hseq', hfault', hshadow', htrace'⟩ := h
    exact .ok sent hP hst ⟨fun e => hcs' (hcs.trans e), fun e => hseq' (hseq.trans e), hfault'.trans hfault,
      hshadow ▸ hshadow', htrace ▸ htrace'⟩
  | failed sent f hP hf h =>
    obtain ⟨hcs', hseq', hst', hfault', hshadow', htrace'⟩ := h
    exact .failed sent f hP hf ⟨hcs', hseq', hst', hfault', hshadow', htrace ▸ htrace'⟩

/-! ### The shared operations -/

theorem afterOk_sends (f : Frame) (s : State) : s.Sends (afterOk f s) [f] :=
  ⟨fun _ => rfl, id, rfl, rfl, rfl⟩

theorem afterFail_sendsThenFails (f : Frame) (s : State) : s.SendsThenFails (afterFail f s) [] f :=
  ⟨rfl, rfl, rfl, rfl, rfl, by simp [afterFail, okRecords]⟩

theorem afterFrame_ran {f : Frame} (hf : P f) (s : State) : State.Ran P s.status s (afterFrame f s) := by
  rcases afterFrame_cases f s with ⟨-, e⟩ | ⟨-, e⟩
  · rw [e]
    exact .ok [f] (by simpa using hf) rfl (afterOk_sends f s)
  · rw [e]
    exact .failed [] f (by simp) hf (afterFail_sendsThenFails f s)

theorem afterCommandFrame_ran {f : Frame} (hf : P f) (s : State) : State.Ran P .ok s (afterCommandFrame f s) := by
  rcases afterCommandFrame_cases f s with ⟨-, e⟩ | ⟨-, e⟩
  · rw [e]
    exact .ok [f] (by simpa using hf) rfl ⟨fun _ => rfl, id, rfl, rfl, rfl⟩
  · rw [e]
    exact .failed [] f (by simp) hf (afterFail_sendsThenFails f s)

theorem digitBelow_digitReg {n i : Nat} (r : Bool) (d : Byte) (hi : i < n) (hn : n ≤ 8) :
    Frame.digitBelow n ⟨digitReg n r i, d⟩ = true := by
  simpa [Frame.digitBelow] using digitReg_range r hi hn

/-- Placing a mask sends it to a digit register of the block, or sends nothing. -/
theorem afterMask_ran (index : Int) (mask : Byte) (s : State)
    (hP : ∀ f : Frame, (s.legal → f.digitBelow s.digitCount = true) → f.data = mask → P f) :
    State.Ran P .ok s (afterMask index mask s) := by
  by_cases h : indexInRange s.digitCount index
  · rw [afterMask_inRange mask h]
    have hstore : s.Silent { s with buf := s.buf.set index.toNat mask } := ⟨rfl, rfl, rfl, rfl, rfl⟩
    refine (afterCommandFrame_ran ?_ _).of_silent hstore
    exact hP _ (fun hl => digitBelow_digitReg _ _ (by omega) hl.2) rfl
  · rw [afterMask_outOfRange mask h]
    have hsilent : s.Silent { s with status := .ok } := ⟨rfl, rfl, rfl, rfl, rfl⟩
    exact hsilent.ran rfl

/-- A multi-frame command sends its whole list, or the part up to the first frame that fails. -/
theorem completeCommand_runMultiFrame_ran {l : List FrameAction} {s t : State} (hl : ∀ x ∈ l, x.SendsFor s)
    (hP : ∀ f ∈ l.map (·.frame), P f) (h : completeCommand (runMultiFrame (l.map (·.act)) s) = .next t) :
    State.Ran P .ok s t := by
  rcases eq_or_ne l [] with rfl | hne
  · cases h
    exact .ok [] (by simp) rfl ⟨id, fun _ => rfl, rfl, rfl, (List.append_nil _).symm⟩
  · rcases s.allOk_or_failsAt l.length with hok | ⟨k, hk, hfails⟩
    · rw [completeCommand_runMultiFrame_allOk l s hl hne hok] at h
      cases h
      exact .ok _ hP rfl ⟨fun _ => rfl, fun _ => rfl, rfl, rfl, rfl⟩
    · rw [completeCommand_runMultiFrame_failsAt l k _ s hl (List.getElem?_eq_getElem hk) hfails] at h
      cases h
      refine .failed _ _ (fun g hg => hP g ?_) (hP _ ?_) ⟨rfl, rfl, rfl, rfl, rfl, rfl⟩
      · exact List.map_subset _ (List.take_subset k l) hg
      · exact List.mem_map_of_mem (List.getElem_mem hk)

end

/-! ### What a command sends -/

/-- In a state with a legal digit count, the table lists the frame for the command (30_encoding.md R79). -/
def FromTable (i : Instr) (s : State) (f : Frame) : Prop := s.legal → mayEmit i s f = true

theorem data_and_digitBelow_of_mem_clearFrames {s : State} {f : Frame} (hf : f ∈ clearFrames s) :
    f.data = 0x00 ∧ (s.legal → f.digitBelow s.digitCount = true) := by
  obtain ⟨i, hi, rfl⟩ := List.mem_map.mp hf
  exact ⟨rfl, fun hl => digitBelow_digitReg _ _ (List.mem_range.mp hi) hl.2⟩

theorem powerOnFrames_fromTable {s : State} : ∀ f ∈ powerOnFrames s, FromTable .powerOn s f := by
  intro f hf hl
  simp only [powerOnFrames, List.mem_append, List.mem_cons, List.not_mem_nil, or_false] at hf
  rcases hf with ((rfl | rfl | rfl | rfl) | hclear) | rfl
  · rfl
  · rfl
  · simp [mayEmit]
  · rfl
  · obtain ⟨hdata, hbelow⟩ := data_and_digitBelow_of_mem_clearFrames hclear
    simp [mayEmit, hdata, hbelow hl]
  · simp [mayEmit]

/-- A content command that may place any mask. -/
theorem exec_indexed_ran {i : Instr} {index : Int} {s t : State} (h : exec i s = .next t)
    (hi : i.contentIndex = some index) (hmay : ∀ f : Frame, f.digitBelow s.digitCount = true → mayEmit i s f = true) :
    State.Ran (FromTable i s) .ok s t := by
  obtain ⟨mask, e⟩ := exec_eq_afterMask hi s
  obtain rfl := Host.Outcome.next.inj (e.symm.trans h)
  exact afterMask_ran index mask s fun f hbelow _ hl => hmay f (hbelow hl)

/-- Everything a command can do to the bus, the status bits and the ghost state. -/
theorem exec_command_ran {i : Instr} {s t : State} (hi : i.isCommand = true) (h : exec i s = .next t) :
    State.Ran (FromTable i s) .ok s t := by
  cases i with
  | powerOn =>
    rw [exec_powerOn_eq] at h
    refine completeCommand_runMultiFrame_ran (powerOnData_sendsFor s) ?_ h
    rw [map_frame_powerOnData]
    exact powerOnFrames_fromTable
  | clearAll =>
    rw [exec_clearAll_eq] at h
    refine completeCommand_runMultiFrame_ran (clearActions_sendFor s) ?_ h
    rw [map_frame_clearActions]
    intro f hf hl
    obtain ⟨hdata, hbelow⟩ := data_and_digitBelow_of_mem_clearFrames hf
    simp [mayEmit, hdata, hbelow hl]
  | powerOff | testOn | testOff =>
    obtain rfl := Host.Outcome.next.inj ((completeCommand_writeRegister ..).symm.trans h)
    exact afterCommandFrame_ran (fun _ => rfl) s
  | setBrightness level =>
    by_cases hlevel : levelInRange level
    · obtain rfl := Host.Outcome.next.inj ((exec_setBrightness_inRange hlevel s).symm.trans h)
      have hstore : s.Silent (s.setBrightness (levelBits level)) := ⟨rfl, rfl, rfl, rfl, rfl⟩
      exact (afterCommandFrame_ran (fun _ => by simp [mayEmit, hlevel]) _).of_silent hstore
    · obtain rfl := Host.Outcome.next.inj ((exec_setBrightness_outOfRange hlevel s).symm.trans h)
      have hsilent : s.Silent { s with status := .ok } := ⟨rfl, rfl, rfl, rfl, rfl⟩
      exact hsilent.ran rfl
  | setReverse flag =>
    cases h
    exact State.Silent.ran ⟨rfl, rfl, rfl, rfl, rfl⟩ rfl
  | clear index =>
    obtain rfl := Host.Outcome.next.inj ((completeCommand_setMaskCore ..).symm.trans h)
    exact afterMask_ran _ _ s fun f hbelow hdata hl => by simp [mayEmit, hbelow hl, hdata]
  | setMask index mask =>
    obtain rfl := Host.Outcome.next.inj ((completeCommand_setMaskCore ..).symm.trans h)
    exact afterMask_ran _ _ s fun f hbelow hdata hl => by simp [mayEmit, hbelow hl, hdata]
  | setDigit index | setChar index | setDot index | clearDot index =>
    exact exec_indexed_ran (index := index) h rfl fun _ => id
  | frameDigit0 | frameDigit1 | frameDigit2 | frameDigit3 | frameDigit4 | frameDigit5 | frameDigit6 | frameDigit7
  | frameDecodeMode | frameIntensity | frameScanLimit | frameShutdown | frameDisplayTest => cases hi

/-- Settles O13: a command either sends all its frames, or takes the exception at its last. -/
theorem statusTellsWhetherAFrameFailed : Obligations.StatusTellsWhetherAFrameFailed := by
  intro i s hi
  obtain ⟨t, h⟩ := everyInstructionEnds i s
  cases exec_command_ran hi h with
  | ok sent _ hst hsends => exact ⟨t, sent, h, .inl ⟨hst, hsends.trace_eq, hsends.faultSeen_eq⟩⟩
  | failed sent f _ _ hfails =>
    refine ⟨t, sent, h, .inr ⟨f, hfails.status_eq, hfails.trace_eq, hfails.faultSeen_eq, hfails.seq_eq, fun a => ?_⟩⟩
    rw [State.known, hfails.shadow_eq]
    rfl

/-! ### The frames of the table (30_encoding.md R79) -/

theorem digitBelow_iff {n : Nat} {f : Frame} : f.digitBelow n = true ↔ isDigitRegBelow n f.addr := by
  simp [Frame.digitBelow]

/-- Everything a command may emit: digit frames, INTENSITY, the two bits, and from POWER_ON alone the two constants. -/
theorem mayEmit_cases {i : Instr} {s : State} {f : Frame} (h : mayEmit i s f = true) :
    isDigitRegBelow s.digitCount f.addr
    ∨ f.addr = 0x0A ∧ f.data.toNat ≤ 15
    ∨ (f.addr = 0x0C ∨ f.addr = 0x0F) ∧ (f.data = 0x00 ∨ f.data = 0x01)
    ∨ i = .powerOn ∧ (f = ⟨0x09, 0x00⟩ ∨ f = ⟨0x0B, 0x07⟩) := by
  cases i with
  | powerOn =>
    simp only [mayEmit, Bool.or_eq_true, Bool.and_eq_true, beq_iff_eq, digitBelow_iff] at h
    rcases h with ((((rfl | rfl) | rfl) | rfl) | ⟨hbelow, -⟩) | rfl
    · exact .inr (.inr (.inl ⟨.inr rfl, .inl rfl⟩))
    · exact .inr (.inr (.inr ⟨rfl, .inl rfl⟩))
    · refine .inr (.inl ⟨rfl, ?_⟩)
      have hlt := s.brightness.isLt
      simp only [BitVec.toNat_setWidth]
      omega
    · exact .inr (.inr (.inr ⟨rfl, .inr rfl⟩))
    · exact .inl hbelow
    · exact .inr (.inr (.inl ⟨.inl rfl, .inr rfl⟩))
  | powerOff =>
    obtain rfl := beq_iff_eq.mp h
    exact .inr (.inr (.inl ⟨.inl rfl, .inl rfl⟩))
  | testOn =>
    obtain rfl := beq_iff_eq.mp h
    exact .inr (.inr (.inl ⟨.inr rfl, .inr rfl⟩))
  | testOff =>
    obtain rfl := beq_iff_eq.mp h
    exact .inr (.inr (.inl ⟨.inr rfl, .inl rfl⟩))
  | setBrightness level =>
    simp only [mayEmit, Bool.and_eq_true, decide_eq_true_eq, beq_iff_eq] at h
    obtain ⟨hlevel, rfl⟩ := h
    refine .inr (.inl ⟨rfl, ?_⟩)
    simp only [BitVec.toNat_ofNat]
    omega
  | clear | clearAll | setMask =>
    obtain ⟨hbelow, -⟩ := (Bool.and_eq_true ..).mp h
    exact .inl (digitBelow_iff.mp hbelow)
  | setDigit | setChar | setDot | clearDot => exact .inl (digitBelow_iff.mp h)
  | setReverse | frameDigit0 | frameDigit1 | frameDigit2 | frameDigit3 | frameDigit4 | frameDigit5 | frameDigit6
  | frameDigit7 | frameDecodeMode | frameIntensity | frameScanLimit | frameShutdown | frameDisplayTest => cases h

theorem listed_of_mayEmit {i : Instr} {s : State} {f : Frame} (hl : s.legal) (h : mayEmit i s f = true) :
    f.listed = true := by
  obtain ⟨a, d⟩ := f
  rcases mayEmit_cases h with ⟨hlow, hhigh⟩ | ⟨rfl, hdata⟩ | ⟨rfl | rfl, rfl | rfl⟩ | ⟨-, hf | hf⟩
  · simp [Frame.listed, hlow, hhigh.trans hl.2]
  · simp [Frame.listed, hdata]
  · rfl
  · rfl
  · rfl
  · rfl
  · rw [hf]; rfl
  · rw [hf]; rfl

/-- NOOP is in no row of the table (10_state.md R32). -/
theorem addr_ne_zero_of_listed {f : Frame} (h : f.listed = true) : f.addr ≠ 0x00 := by
  intro h0
  simp [Frame.listed, h0] at h

theorem State.Ran.adds {P : Frame → Prop} {st : Status} {s t : State} (h : State.Ran P st s t) :
    ∃ new, t.trace = s.trace ++ new ∧ ∀ r ∈ new, P r.frame := by
  have hok {sent : List Frame} (hP : ∀ f ∈ sent, P f) : ∀ r ∈ okRecords sent, P r.frame := by
    intro r hr
    obtain ⟨f, hf, rfl⟩ := List.mem_map.mp hr
    exact hP f hf
  cases h with
  | ok sent hP _ h => exact ⟨_, h.trace_eq, hok hP⟩
  | failed sent f hP hf h =>
    refine ⟨okRecords sent ++ [⟨f, .fail⟩], by rw [h.trace_eq, List.append_assoc], fun r hr => ?_⟩
    rcases List.mem_append.mp hr with hr | hr
    · exact hok hP r hr
    · rw [List.mem_singleton.mp hr]
      exact hf

/-- Settles O53: the frames of a command are the table's for it, and all of these are listed. -/
theorem emittedFramesAreListed : Obligations.EmittedFramesAreListed := by
  intro i s t hi hl h
  obtain ⟨new, htrace, hnew⟩ := (exec_command_ran hi h).adds
  refine ⟨new, htrace, fun r hr => ?_⟩
  have hlisted := listed_of_mayEmit hl (hnew r hr hl)
  exact ⟨hnew r hr hl, hlisted, addr_ne_zero_of_listed hlisted⟩

/-! ### Every instruction, and every step -/

/-- A command or a frame row sends listed frames only, and shows OK or, as a frame row does, the status it found. -/
theorem exec_ran {i : Instr} {s t : State} (h : exec i s = .next t) :
    ∃ st, (st = .ok ∨ st = s.status) ∧ State.Ran (fun f => s.legal → f.listed = true) st s t := by
  cases hi : i.isCommand with
  | true => exact ⟨.ok, .inl rfl, (exec_command_ran hi h).mono fun f hf hl => listed_of_mayEmit hl (hf hl)⟩
  | false =>
    obtain ⟨f, hf⟩ := exists_frameRow_of_not_isCommand hi
    obtain ⟨-, hlisted, hexec⟩ := frameRowsSendTheirFrame i f s hf
    obtain rfl := Host.Outcome.next.inj (hexec.symm.trans h)
    exact ⟨s.status, .inr rfl, afterFrame_ran (fun _ => hlisted) s⟩

/-- A step that goes on is silent, or a run from the state with the word taken from the port. -/
theorem step_ran {s t : State} (h : step s = .next t) :
    ∃ st, (st = .ok ∨ st = s.status) ∧ State.Ran (fun f => s.legal → f.listed = true) st s t := by
  rcases step_cases h with ⟨-, rfl⟩ | ⟨p, rest, i, -, -, hexec⟩
  · exact ⟨t.status, .inr rfl, State.Silent.ran ⟨rfl, rfl, rfl, rfl, rfl⟩ rfl⟩
  · obtain ⟨st, hst, hran⟩ := exec_ran hexec
    exact ⟨st, hst, hran.of_silent ⟨rfl, rfl, rfl, rfl, rfl⟩⟩

theorem outcome_of_mem_okRecords {sent : List Frame} {r : FrameRecord} (hr : r ∈ okRecords sent) : r.outcome = .ok := by
  obtain ⟨f, -, rfl⟩ := List.mem_map.mp hr
  rfl

theorem not_exists_fail_okRecords (sent : List Frame) : ¬ ∃ r ∈ okRecords sent, r.outcome = .fail := by
  rintro ⟨r, hr, hfail⟩
  rw [outcome_of_mem_okRecords hr] at hfail
  cases hfail

/-- A run sets `fault_seen` exactly when one of its frames fails. -/
theorem State.Ran.faultSeen_iff {P : Frame → Prop} {st : Status} {s t : State} (h : State.Ran P st s t) :
    ∃ new, t.trace = s.trace ++ new
      ∧ (t.faultSeen = true ↔ s.faultSeen = true ∨ ∃ r ∈ new, r.outcome = .fail) := by
  cases h with
  | ok sent _ _ h => exact ⟨_, h.trace_eq, by rw [h.faultSeen_eq, or_iff_left (not_exists_fail_okRecords sent)]⟩
  | failed sent f _ _ h =>
    exact ⟨okRecords sent ++ [⟨f, .fail⟩], by rw [h.trace_eq, List.append_assoc],
      iff_of_true h.faultSeen_eq (.inr ⟨⟨f, .fail⟩, by simp, rfl⟩)⟩

/-- Settles O15: a step is such a run. -/
theorem faultSeenIsSticky : Obligations.FaultSeenIsSticky := by
  intro s t h
  obtain ⟨st, -, hran⟩ := step_ran h
  exact hran.faultSeen_iff

/-! ### The invariant -/

/-- Settles O49: nothing has been sent at reset. -/
theorem resetMeetsTheInvariant : Obligations.ResetMeetsTheInvariant := by
  have hreset (n : Nat) (hn : Config.legalDigitCount n) : (State.resetWith n).Inv := by
    have hcount : (State.resetWith n).digitCount = n := List.length_replicate
    exact {
      digits := by rwa [State.legal, hcount]
      csIdle := rfl
      seqIdle := rfl
      shadowForm := Memory.wf_unknown
      shadowReplay := rfl
      frames := by simp
      sticky := by simp
      lastStatus := nofun }
  exact ⟨hreset 8 (by decide), hreset⟩

/-- A run of listed frames keeps the canonical form of the shadow and its agreement with the trace. -/
theorem State.Ran.shadow {P : Frame → Prop} {st : Status} {s t : State} (h : State.Ran P st s t) (hwf : s.shadow.wf)
    (hreplay : s.shadow = replay s.trace) : t.shadow.wf ∧ t.shadow = replay t.trace := by
  cases h with
  | ok sent _ _ h =>
    rw [h.shadow_eq, h.trace_eq, replay_append_okRecords, ← hreplay]
    exact ⟨told_wf sent _ hwf, rfl⟩
  | failed sent f _ _ h =>
    rw [h.shadow_eq, h.trace_eq, replay_append_fail]
    exact ⟨Memory.wf_unknown, rfl⟩

theorem State.Ran.idle {P : Frame → Prop} {st : Status} {s t : State} (h : State.Ran P st s t) (hcs : s.csN = true)
    (hseq : s.seq = 0) : t.csN = true ∧ t.seq = 0 := by
  cases h with
  | ok sent _ _ h => exact ⟨h.csIdle hcs, h.seqIdle hseq⟩
  | failed sent f _ _ h => exact ⟨h.csN_eq, h.seq_eq⟩

/-- A run that shows BUS_ERROR has failed, or found that status. -/
theorem State.Ran.lastStatus {P : Frame → Prop} {st : Status} {s t : State} (h : State.Ran P st s t)
    (hst : st = .ok ∨ st = s.status) (hlast : s.status = .busError → s.faultSeen = true) :
    t.status = .busError → t.faultSeen = true := by
  intro hbus
  cases h with
  | ok sent _ hst' h =>
    rw [h.faultSeen_eq]
    rcases hst with rfl | rfl
    · cases hst'.symm.trans hbus
    · exact hlast (hst'.symm.trans hbus)
  | failed sent f _ _ h => exact h.faultSeen_eq

theorem State.Inv.of_ran {st : Status} {s t : State} (hs : s.Inv) (hlength : t.digitCount = s.digitCount)
    (hst : st = .ok ∨ st = s.status) (h : State.Ran (fun f => s.legal → f.listed = true) st s t) : t.Inv := by
  obtain ⟨hdigits, hcs, hseq, hform, hreplay, hframes, hsticky, hlast⟩ := hs
  obtain ⟨hcs', hseq'⟩ := h.idle hcs hseq
  obtain ⟨hform', hreplay'⟩ := h.shadow hform hreplay
  obtain ⟨new, htrace, hnew⟩ := h.adds
  refine ⟨by rwa [State.legal, hlength], hcs', hseq', hform', hreplay', ?_, ?_, h.lastStatus hst hlast⟩
  · intro r hr
    rw [htrace] at hr
    rcases List.mem_append.mp hr with hr | hr
    · exact hframes r hr
    · exact hnew r hr hdigits
  · obtain ⟨added, htrace', hiff⟩ := h.faultSeen_iff
    rw [hiff, hsticky, htrace']
    simp only [List.mem_append, or_and_right, exists_or]

theorem step_digitCount {s t : State} (h : step s = .next t) : t.digitCount = s.digitCount := by
  rcases step_cases h with ⟨-, rfl⟩ | ⟨p, rest, i, -, -, hexec⟩
  · rfl
  · exact (exec_writesOnlyItsRegisters hexec).buf_length_eq

/-- Settles O50: a step is a run of listed frames that keeps the digit count. -/
theorem stepKeepsTheInvariant : Obligations.StepKeepsTheInvariant := by
  intro s t hs h
  obtain ⟨st, hst, hran⟩ := step_ran h
  exact hs.of_ran (step_digitCount h) hst hran

end Sys2Proof.Machine
end

section
/-! PROOFS. The controller between commands (41_lifecycle.md R111, R112; 60_exceptions.md R183): which registers a command
may have changed, the controller invariant, and the phase table. -/

namespace Sys2Proof.Machine

/-! ### What a command that shows OK has told the controller -/

/-- A register reads as before, or as a frame that wrote it says. -/
theorem told_read_cases (fs : List Frame) (m : Memory) (a : Nat) :
    (told fs m).read a = m.read a ∨ ∃ f ∈ fs, f.addr.toNat = a ∧ (told fs m).read a = some f.data := by
  induction fs generalizing m with
  | nil => exact .inl rfl
  | cons g fs ih =>
    rcases ih (m.write g.addr.toNat g.data) with h | ⟨f, hf, haddr, h⟩
    · by_cases ha : a = g.addr.toNat
      · exact .inr ⟨g, List.mem_cons_self .., ha.symm, h.trans (ha ▸ Memory.read_write_same ..)⟩
      · exact .inl (h.trans (Memory.read_write_other _ _ ha))
    · exact .inr ⟨f, List.mem_cons_of_mem _ hf, haddr, h⟩

/-- What every command but POWER_ON leaves of the controller: DECODE_MODE and SCAN_LIMIT as they were, INTENSITY known if
it was, and the two bits bits if they were. -/
structure Memory.KeepsController (m m' : Memory) : Prop where
  decode_eq : m'.read 0x09 = m.read 0x09
  scan_eq : m'.read 0x0B = m.read 0x0B
  intensity : (m.read 0x0A).isSome → (m'.read 0x0A).isSome
  shutdown : m.knownBit 0x0C → m'.knownBit 0x0C
  test : m.knownBit 0x0F → m'.knownBit 0x0F

theorem Memory.KeepsController.configured {m m' : Memory} (h : m.KeepsController m') (hm : configured m) :
    configured m' := by
  obtain ⟨hdecode, hscan, hintensity⟩ := hm
  exact ⟨h.decode_eq.trans hdecode, h.scan_eq.trans hscan, h.intensity hintensity⟩

theorem not_isDigitRegBelow_of_isPowerOnReg {s : State} (hl : s.legal) {a : Byte} (ha : isPowerOnReg a) :
    ¬ isDigitRegBelow s.digitCount a := by
  rintro ⟨-, hhigh⟩
  have hnamed := lt_toNat_of_isPowerOnReg ha
  have hN : s.digitCount ≤ 8 := hl.2
  omega

/-- Frames that the table lists for a command other than POWER_ON write neither DECODE_MODE nor SCAN_LIMIT, and only bits
to SHUTDOWN and DISPLAY_TEST. -/
theorem told_keepsController {i : Instr} {s : State} {sent : List Frame} (hi : i ≠ .powerOn) (hl : s.legal)
    (hsent : ∀ f ∈ sent, mayEmit i s f = true) (m : Memory) : m.KeepsController (told sent m) := by
  have hother {a : Byte} (ha : a = 0x09 ∨ a = 0x0B) : (told sent m).read a.toNat = m.read a.toNat := by
    refine told_read_other _ _ _ fun f hf haddr => ?_
    obtain rfl := BitVec.toNat_inj.mp haddr
    rcases mayEmit_cases (hsent f hf) with hdigit | ⟨e, -⟩ | ⟨e | e, -⟩ | ⟨hon, -⟩
    · exact not_isDigitRegBelow_of_isPowerOnReg hl (by unfold isPowerOnReg; tauto) hdigit
    · exact absurd ha (by rw [e]; decide)
    · exact absurd ha (by rw [e]; decide)
    · exact absurd ha (by rw [e]; decide)
    · exact hi hon
  have hbit {a : Byte} (ha : a = 0x0C ∨ a = 0x0F) (hm : m.knownBit a.toNat) : (told sent m).knownBit a.toNat := by
    rcases told_read_cases sent m a.toNat with h | ⟨f, hf, haddr, h⟩
    · rwa [Memory.knownBit, h]
    · obtain rfl := BitVec.toNat_inj.mp haddr
      rcases mayEmit_cases (hsent f hf) with hdigit | ⟨e, -⟩ | ⟨-, hdata⟩ | ⟨hon, -⟩
      · exact absurd hdigit (not_isDigitRegBelow_of_isPowerOnReg hl (by unfold isPowerOnReg; tauto))
      · exact absurd ha (by rw [e]; decide)
      · rw [Memory.knownBit, h]
        exact hdata.imp (congrArg some) (congrArg some)
      · exact absurd hon hi
  have hintensity (hm : (m.read 0x0A).isSome) : ((told sent m).read 0x0A).isSome := by
    rcases told_read_cases sent m 0x0A with h | ⟨f, -, -, h⟩
    · rwa [h]
    · rw [h]; rfl
  exact ⟨hother (.inl rfl), hother (.inr rfl), hintensity, hbit (.inl rfl), hbit (.inr rfl)⟩

theorem exec_keepsController {i : Instr} {s t : State} (hi : i.isCommand = true) (hon : i ≠ .powerOn) (hl : s.legal)
    (h : exec i s = .next t) (hok : t.status = .ok) : s.shadow.KeepsController t.shadow := by
  cases exec_command_ran hi h with
  | ok sent hP _ hsends =>
    rw [hsends.shadow_eq]
    exact told_keepsController hon hl (fun f hf => hP f hf hl) _
  | failed sent f _ _ hfails => cases hok.symm.trans hfails.status_eq

/-- A POWER_ON that shows OK has sent its whole list. -/
theorem exec_powerOn_shadow {s t : State} (h : exec .powerOn s = .next t) (hok : t.status = .ok) :
    t.shadow = told (powerOnFrames s) s.shadow := by
  rcases s.allOk_or_failsAt (5 + s.digitCount) with hall | ⟨k, hk, hfails⟩
  · obtain rfl := Host.Outcome.next.inj ((exec_powerOn_allOk hall).symm.trans h)
    rfl
  · have hlt : k < (powerOnFrames s).length := by rwa [length_powerOnFrames]
    have hstop := powerOnStopsAtFailingFrame s k _ hfails (List.getElem?_eq_getElem hlt)
    obtain rfl := Host.Outcome.next.inj (hstop.symm.trans h)
    cases hok

/-! ### After a failure (60_exceptions.md R183) -/

theorem phase_nil : phase [] = .uninitialized := by decide

theorem phase_of_decodeMode_unknown {m : Memory} (h : m.read 0x09 = none) : phase m = .uninitialized := by
  refine if_pos fun ⟨hdecode, _⟩ => ?_
  cases h.symm.trans hdecode

theorem shadow_of_busError {i : Instr} {s t : State} (hi : i.isCommand = true) (h : exec i s = .next t)
    (hbus : t.status = .busError) : t.shadow = [] := by
  rcases exec_command_statusOk_or_forgets hi h with hok | hforgets
  · cases hok.symm.trans hbus
  · exact hforgets

/-- DECODE_MODE and SCAN_LIMIT become known by POWER_ON only. -/
theorem exec_leaves_unknown {i : Instr} {s t : State} (hi : i.isCommand = true) (hon : i ≠ .powerOn) (hl : s.legal)
    (h : exec i s = .next t) (hdecode : s.shadow.read 0x09 = none) (hscan : s.shadow.read 0x0B = none) :
    t.shadow.read 0x09 = none ∧ t.shadow.read 0x0B = none := by
  rcases exec_command_statusOk_or_forgets hi h with hok | hforgets
  · have hkeeps := exec_keepsController hi hon hl h hok
    exact ⟨hkeeps.decode_eq.trans hdecode, hkeeps.scan_eq.trans hscan⟩
  · rw [hforgets]
    exact ⟨rfl, rfl⟩

/-- Settles O14: the exception forgets the shadow, and only POWER_ON writes what a phase but Uninitialized needs. -/
theorem failureLeavesUninitialized : Obligations.FailureLeavesUninitialized := by
  refine ⟨fun i s t hi h hbus => ?_, fun i s t hi hon hl hdecode hscan h => ?_⟩
  · have hforgets := shadow_of_busError hi h hbus
    refine ⟨fun a => ?_, hforgets ▸ phase_nil⟩
    rw [State.known, hforgets]
    rfl
  · obtain ⟨hdecode', hscan'⟩ := exec_leaves_unknown hi hon hl h hdecode hscan
    exact ⟨hdecode', hscan', phase_of_decodeMode_unknown hdecode'⟩

/-! ### The controller invariant (41_lifecycle.md R111) -/

theorem controllerInv_of_shadow_nil {s : State} (h : s.shadow = []) : s.ControllerInv := by
  intro hknown
  simp [h, Memory.read] at hknown

/-- The frames of POWER_ON configure the controller and set both bits. -/
theorem powerOn_controllerInv {s t : State} (hl : s.legal) (ht : t.shadow = told (powerOnFrames s) s.shadow) :
    t.ControllerInv := by
  intro _
  have hactive := phase_told_powerOnFrames hl s.shadow
  rw [← ht] at hactive
  obtain ⟨htest, hshut⟩ := shown_of_phase hactive
  exact ⟨configured_of_phase (by simp [hactive]), .inr hshut, .inl htest⟩

theorem Memory.KeepsController.controllerInv {s t : State} (h : s.shadow.KeepsController t.shadow)
    (hs : s.ControllerInv) : t.ControllerInv := by
  intro hknown
  rw [h.decode_eq, h.scan_eq] at hknown
  obtain ⟨hconf, hshut, htest⟩ := hs hknown
  exact ⟨h.configured hconf, h.shutdown hshut, h.test htest⟩

theorem exec_keeps_controllerInv {i : Instr} {s t : State} (hi : i.isCommand = true) (hl : s.legal)
    (hs : s.ControllerInv) (h : exec i s = .next t) : t.ControllerInv := by
  rcases exec_command_statusOk_or_forgets hi h with hok | hforgets
  · by_cases hon : i = .powerOn
    · subst hon
      exact powerOn_controllerInv hl (exec_powerOn_shadow h hok)
    · exact (exec_keepsController hi hon hl h hok).controllerInv hs
  · exact controllerInv_of_shadow_nil hforgets

/-- In every other phase than Uninitialized DECODE_MODE is known. -/
theorem controller_of_phase {s : State} (hs : s.ControllerInv) (h : phase s.shadow ≠ .uninitialized) :
    configured s.shadow ∧ s.shadow.knownBit 0x0C ∧ s.shadow.knownBit 0x0F := by
  obtain ⟨hdecode, -⟩ := configured_of_phase h
  exact hs (.inl (Option.isSome_of_eq_some hdecode))

/-- Settles O51: a command fails and forgets everything, is a complete POWER_ON, or keeps the invariant's registers. -/
theorem commandsKeepTheControllerInvariant : Obligations.CommandsKeepTheControllerInvariant :=
  ⟨fun _ => controllerInv_of_shadow_nil rfl, fun _ _ _ => exec_keeps_controllerInv,
    fun _ hs h => (controller_of_phase hs h).2⟩

/-! ### The phase table (41_lifecycle.md R112) -/

/-- DISPLAY_TEST in a row of the table other than Uninitialized. -/
def PhaseCase.test : PhaseCase → Byte
  | .u | .a | .s => 0x00
  | .t1 | .t0 => 0x01

/-- SHUTDOWN in a row of the table other than Uninitialized. -/
def PhaseCase.shut : PhaseCase → Byte
  | .a | .t1 => 0x01
  | .u | .t0 | .s => 0x00

/-- The controller is configured, and its two bits are those of the row. -/
structure Memory.Shows (m : Memory) (c : PhaseCase) : Prop where
  configured : configured m
  test_eq : m.read 0x0F = some c.test
  shut_eq : m.read 0x0C = some c.shut

theorem inCase_of_shows {s : State} {c : PhaseCase} (hc : c ≠ .u) (h : s.shadow.Shows c) : s.inCase c := by
  have hphase := phase_of_configured h.configured h.test_eq h.shut_eq
  cases c with
  | u => exact absurd rfl hc
  | a | s => exact hphase
  | t1 | t0 => exact ⟨hphase, h.shut_eq⟩

/-- In a row of the table other than Uninitialized, phase and SHUTDOWN fix the two bits. -/
theorem shows_of_inCase {s : State} {c : PhaseCase} (hc : c ≠ .u) (h : s.inCase c) : s.shadow.Shows c := by
  have hphases := phase_cases s.shadow
  cases c with
  | u => exact absurd rfl hc
  | a =>
    obtain ⟨htest, hshut⟩ := shown_of_phase h
    exact ⟨configured_of_phase (h ▸ nofun), htest, hshut⟩
  | s =>
    replace h : phase s.shadow = .shutdown := h
    obtain ⟨htest, hshut⟩ := by simpa [h] using hphases
    exact ⟨configured_of_phase (h ▸ nofun), htest, hshut⟩
  | t1 | t0 =>
    obtain ⟨h, hshut⟩ := h
    have htest := by simpa [h] using hphases
    exact ⟨configured_of_phase (h ▸ nofun), htest, hshut⟩

/-- The byte a command other than POWER_ON sends to DISPLAY_TEST, if it sends one (41_lifecycle.md R106, R108). -/
def testByte : Instr → Option Byte
  | .testOn => some 0x01
  | .testOff => some 0x00
  | _ => none

/-- The byte a command other than POWER_ON sends to SHUTDOWN, if it sends one (41_lifecycle.md R104). -/
def shutByte : Instr → Option Byte
  | .powerOff => some 0x00
  | _ => none

/-- The table changes the two bits as the command's frame does. -/
theorem nextCase_bits {c : PhaseCase} {i : Instr} (hc : c ≠ .u) (hon : i ≠ .powerOn) :
    nextCase c i ≠ .u ∧ (nextCase c i).test = (testByte i).getD c.test
      ∧ (nextCase c i).shut = (shutByte i).getD c.shut := by
  cases c with
  | u => exact absurd rfl hc
  | a | t1 | t0 | s =>
    cases i with
    | powerOn => exact absurd rfl hon
    | _ => exact ⟨nofun, rfl, rfl⟩

theorem nextCase_u {i : Instr} (hon : i ≠ .powerOn) : nextCase .u i = .u := by
  cases i with
  | powerOn => exact absurd rfl hon
  | _ => rfl

/-- A command that sends one frame and shows OK has written that register and no other. -/
theorem completeCommand_writeRegister_read {a d : Byte} {s t : State}
    (h : completeCommand (writeRegister a d s) = .next t) (hok : t.status = .ok) (b : Nat) :
    t.shadow.read b = if b = a.toNat then some d else s.shadow.read b := by
  rw [completeCommand_writeRegister] at h
  cases h
  rw [afterCommandFrame_of_statusOk hok]
  exact Memory.read_write ..

theorem exec_bits {i : Instr} {s t : State} (hi : i.isCommand = true) (hon : i ≠ .powerOn) (hl : s.legal)
    (h : exec i s = .next t) (hok : t.status = .ok) :
    t.shadow.read 0x0F = (testByte i).or (s.shadow.read 0x0F)
      ∧ t.shadow.read 0x0C = (shutByte i).or (s.shadow.read 0x0C) := by
  have hkept (hkind : i.isContent = true ∨ i.isConfig = true) :
      t.shadow.read 0x0F = s.shadow.read 0x0F ∧ t.shadow.read 0x0C = s.shadow.read 0x0C :=
    ⟨exec_contentOrConfig_known hkind hl h hok (.inl rfl), exec_contentOrConfig_known hkind hl h hok (.inr rfl)⟩
  cases i with
  | powerOn => exact absurd rfl hon
  | powerOff | testOn | testOff =>
    have hread := completeCommand_writeRegister_read h hok
    exact ⟨hread 0x0F, hread 0x0C⟩
  | setBrightness | setReverse => exact hkept (.inr rfl)
  | clear | clearAll | setDigit | setChar | setDot | clearDot | setMask => exact hkept (.inl rfl)
  | frameDigit0 | frameDigit1 | frameDigit2 | frameDigit3 | frameDigit4 | frameDigit5 | frameDigit6 | frameDigit7
  | frameDecodeMode | frameIntensity | frameScanLimit | frameShutdown | frameDisplayTest => cases hi

/-- From a row other than Uninitialized, a command other than POWER_ON leads to the bits of the table's entry. -/
theorem exec_shows {i : Instr} {s t : State} {c : PhaseCase} (hi : i.isCommand = true) (hon : i ≠ .powerOn)
    (hl : s.legal) (h : exec i s = .next t) (hok : t.status = .ok) (hc : c ≠ .u) (hs : s.shadow.Shows c) :
    t.shadow.Shows (nextCase c i) := by
  obtain ⟨hconf, htest, hshut⟩ := hs
  obtain ⟨htest', hshut'⟩ := exec_bits hi hon hl h hok
  obtain ⟨-, hnextTest, hnextShut⟩ := nextCase_bits hc hon
  refine ⟨(exec_keepsController hi hon hl h hok).configured hconf, ?_, ?_⟩
  · rw [htest', htest, hnextTest, Option.or_some]
  · rw [hshut', hshut, hnextShut, Option.or_some]

/-- In phase Uninitialized the controller invariant leaves DECODE_MODE and SCAN_LIMIT unknown. -/
theorem unknown_of_uninitialized {s : State} (hs : s.ControllerInv) (h : phase s.shadow = .uninitialized) :
    s.shadow.read 0x09 = none ∧ s.shadow.read 0x0B = none := by
  have hnone : ¬ ((s.shadow.read 0x09).isSome ∨ (s.shadow.read 0x0B).isSome) := by
    intro hknown
    obtain ⟨hconf, hshut | hshut, htest | htest⟩ := hs hknown <;>
      simp [phase_of_configured hconf htest hshut] at h
  simpa using hnone

/-- Settles O52: POWER_ON leads to Active; the other commands keep Uninitialized, or change the two bits of the row. -/
theorem phaseTransitions : Obligations.PhaseTransitions := by
  intro i s t c hi hl hs hc h
  refine ⟨fun hok => ?_, fun hbus => ?_⟩
  · by_cases hon : i = .powerOn
    · subst hon
      have hactive := phase_told_powerOnFrames hl s.shadow
      rw [← exec_powerOn_shadow h hok] at hactive
      cases c <;> exact hactive
    · by_cases hu : c = .u
      · subst hu
        obtain ⟨hdecode, hscan⟩ := unknown_of_uninitialized hs hc
        rw [nextCase_u hon]
        exact phase_of_decodeMode_unknown (exec_leaves_unknown hi hon hl h hdecode hscan).1
      · exact inCase_of_shows (nextCase_bits hu hon).1 (exec_shows hi hon hl h hok hu (shows_of_inCase hu hc))
  · show phase t.shadow = .uninitialized
    rw [shadow_of_busError hi h hbus]
    exact phase_nil

end Sys2Proof.Machine
end

section
/-! PROOFS. SET_STRING (30_encoding.md R88): what it expands to, and what running its commands leaves in the buffer. -/

namespace Sys2Proof.Machine

/-! ### The expansion -/

theorem mem_expandString (start : Int) (text : List Nat) (i : Instr) : i ∈ expandString start text ↔
    ∃ (k c : Nat), text[k]? = some c ∧ 0 ≤ start + k ∧ start + k ≤ 63 ∧ i = .setChar (start + k) c false := by
  induction text generalizing start with
  | nil => simp [expandString]
  | cons c cs ih =>
    have hpos (k : Nat) : start + 1 + (k : Int) = start + ((k + 1 : Nat) : Int) := by omega
    have hfirst : (∃ d : Nat, (c :: cs)[0]? = some d ∧ 0 ≤ start + (0 : Nat) ∧ start + (0 : Nat) ≤ 63
        ∧ i = .setChar (start + (0 : Nat)) d false) ↔ indexFits start = true ∧ i = .setChar start c false := by
      simp [indexFits_iff, and_assoc]
    rw [← Nat.or_exists_add_one, hfirst, expandString_cons]
    have hrest := ih (start + 1)
    simp only [hpos] at hrest
    simp only [List.getElem?_cons_succ, ← hrest]
    split <;> simp [*]

/-- A SET_CHAR outside the field's range is outside the buffer too (00_scope.md R7). -/
theorem exec_setChar_beyond_field {index : Int} (cp : Int) (dot : Bool) {s : State} (hl : s.legal)
    (h : index < 0 ∨ 63 < index) : exec (.setChar index cp dot) s = .next { s with status := .ok } := by
  have hN : s.digitCount ≤ 8 := hl.2
  exact outOfRangeIndexIsNoOp (.setChar index cp dot) s index rfl (by omega)

/-- Settles O36: the example by evaluation, the rest by the recursion of the expansion and the range guard. -/
theorem setStringExpansion : Obligations.SetStringExpansion :=
  ⟨by decide, fun _ => rfl, mem_expandString, fun _ c _ hl h => exec_setChar_beyond_field c false hl h⟩

/-! ### Running the expansion -/

/-- The character of a text that falls on index `j` when the text starts at `start`. -/
def charAt (start : Int) (text : List Nat) (j : Int) : Option Nat :=
  if start ≤ j then text[(j - start).toNat]? else none

theorem charAt_nil (start j : Int) : charAt start [] j = none := by
  simp [charAt]

theorem charAt_cons (start : Int) (c : Nat) (cs : List Nat) (j : Int) :
    charAt start (c :: cs) j = if j = start then some c else charAt (start + 1) cs j := by
  unfold charAt
  rcases lt_trichotomy j start with hlt | rfl | hgt
  · rw [if_neg (by omega), if_neg (by omega), if_neg (by omega)]
  · simp
  · have hpos : (j - start).toNat = (j - (start + 1)).toNat + 1 := by omega
    rw [if_pos (by omega), if_neg (by omega), if_pos (by omega), hpos, List.getElem?_cons_succ]

/-- `t` has the buffer of `s` with the masks of the text's characters placed over it. -/
structure State.ShowsText (start : Int) (text : List Nat) (s t : State) : Prop where
  length_eq : t.buf.length = s.buf.length
  buf_eq : ∀ j < s.digitCount, t.buf[j]? = ((charAt start text j).map fun c : Nat => charMask c).or s.buf[j]?

theorem exec_setChar_eq (index cp : Int) (dot : Bool) (s : State) :
    exec (.setChar index cp dot) s = .next (afterMask index (dotMux (charMask cp) dot) s) :=
  completeCommand_setMaskCore ..

theorem length_afterMask_buf (index : Int) (mask : Byte) (s : State) :
    (afterMask index mask s).buf.length = s.buf.length := by
  rw [afterMask_buf]
  split
  · exact List.length_set ..
  · rfl

/-- The first character's mask is stored, then the rest of the text runs on. -/
theorem State.ShowsText.cons_fits {start : Int} {c : Nat} {cs : List Nat} {s t : State}
    (h : State.ShowsText (start + 1) cs (afterMask start (charMask c) s) t) : State.ShowsText start (c :: cs) s t := by
  obtain ⟨hlength, hbuf⟩ := h
  rw [length_afterMask_buf] at hlength
  refine ⟨hlength, fun j hj => ?_⟩
  rw [hbuf j (by rwa [State.digitCount, length_afterMask_buf]), charAt_cons]
  by_cases hstart : (j : Int) = start
  · subst hstart
    rw [if_pos rfl, afterMask_buf_getElem?_self _ hj]
    simp [charAt]
  · rw [if_neg hstart, afterMask_buf_getElem?_ne _ _ hstart]

/-- A first character beyond the field is beyond the buffer. -/
theorem State.ShowsText.cons_beyond {start : Int} {c : Nat} {cs : List Nat} {s t : State} (hl : s.legal)
    (hstart : ¬ indexFits start = true) (h : State.ShowsText (start + 1) cs s t) :
    State.ShowsText start (c :: cs) s t := by
  obtain ⟨hlength, hbuf⟩ := h
  refine ⟨hlength, fun j hj => ?_⟩
  have hN : s.digitCount ≤ 8 := hl.2
  rw [indexFits_iff] at hstart
  rw [hbuf j hj, charAt_cons, if_neg (by omega)]

theorem execAll_expandString (start : Int) (text : List Nat) (s : State) (hl : s.legal) :
    ∃ t, execAll (expandString start text) s = .next t ∧ State.ShowsText start text s t := by
  induction text generalizing start s with
  | nil => exact ⟨s, rfl, rfl, fun j _ => by simp [charAt_nil]⟩
  | cons c cs ih =>
    rw [expandString_cons]
    split
    · have hl' : (afterMask start (charMask c) s).legal := by rwa [State.legal, State.digitCount, length_afterMask_buf]
      obtain ⟨t, ht, hshows⟩ := ih (start + 1) _ hl'
      refine ⟨t, ?_, hshows.cons_fits⟩
      simpa only [execAll, exec_setChar_eq, dotMux_false] using ht
    · next hstart =>
      obtain ⟨t, ht, hshows⟩ := ih (start + 1) s hl
      exact ⟨t, ht, hshows.cons_beyond hl hstart⟩

/-- Settles O35: the run leaves the text over the old buffer, read at an index inside the text or outside it. -/
theorem setStringWritesItsCharacters : Obligations.SetStringWritesItsCharacters := by
  intro start text s hl
  obtain ⟨t, ht, hlength, hbuf⟩ := execAll_expandString start text s hl
  refine ⟨t, ht, hlength, fun j hj => ?_⟩
  rw [hbuf j hj]
  split
  · next hinside =>
    have hlt : ((j : Int) - start).toNat < text.length := by omega
    rw [charAt, if_pos hinside.1, List.getElem?_eq_getElem hlt]
    rfl
  · next houtside =>
    have hnone : charAt start text j = none := by
      rw [charAt, ite_eq_right_iff, List.getElem?_eq_none_iff]
      omega
    rw [hnone]
    rfl

end Sys2Proof.Machine
end

section
/-! PROOFS. The decimal point and the segments (43_encoder.md R139 to R141, 30_encoding.md R82), construction and reset
(00_scope.md R7, 70_reset_and_hazards.md R200). -/

namespace Sys2Proof.Machine

/-- The bits of a mask through the dot mux: bit 7 is the OR with the dot, the others are kept. -/
theorem getLsbD_dotMux (m : Byte) (dot : Bool) (k : Nat) :
    (dotMux m dot).getLsbD k = (m.getLsbD k || (dot && decide (k = 7))) := by
  cases dot with
  | false => simp
  | true => exact getLsbD_dotSet m k

/-- Settles O44: the mux bit by bit, and at the blank mask of a digit outside the table. -/
theorem decimalPointIsComposedByOr : Obligations.DecimalPointIsComposedByOr := by
  refine ⟨fun m => ⟨rfl, rfl⟩, fun m dot k hk => ?_, fun m dot => ?_, fun digit hdigit => ?_⟩
  · rw [getLsbD_dotMux, decide_eq_false (by omega), Bool.and_false, Bool.or_false]
  · rw [getLsbD_dotMux, decide_eq_true rfl, Bool.and_true]
  · have hblank : digitMask digit = 0x00 := digitMaskWith_outOfRange _ (by omega)
    rw [hblank, dotMux_blank, dotMux_blank]
    exact ⟨rfl, rfl⟩

/-- Settles O45: both operators bit by bit; each overwrites what the other did to bit 7. -/
theorem dotOperatorLaws : Obligations.DotOperatorLaws := by
  intro m
  refine ⟨rfl, rfl, by rw [dotClear_dotSet, dotClear_eq_self_iff], dotSet_dotClear m, fun k hk => ⟨?_, ?_⟩⟩
  · rw [getLsbD_dotSet, decide_eq_false (by omega), Bool.or_false]
  · rw [getLsbD_dotClear, decide_eq_false (by omega), Bool.not_false, Bool.and_true]

/-- What holds of each of the eight segments holds of all. -/
theorem Segment.forall_of_each {P : Segment → Prop} (h : P .middle ∧ P .topLeft ∧ P .bottomLeft ∧ P .bottom
    ∧ P .bottomRight ∧ P .topRight ∧ P .top ∧ P .decimalPoint) (g : Segment) : P g := by
  obtain ⟨h0, h1, h2, h3, h4, h5, h6, h7⟩ := h
  cases g <;> assumption

/-- Settles O47: each mask evaluated at the eight segments. -/
theorem sourceMasksLightTheirSegments : Obligations.SourceMasksLightTheirSegments :=
  ⟨Segment.forall_of_each (by decide), Segment.forall_of_each (by decide), Segment.forall_of_each (by decide),
    Segment.forall_of_each (by decide), Segment.forall_of_each (by decide), Segment.forall_of_each (by decide),
    Segment.forall_of_each (by decide)⟩

theorem construct_legal {n : Nat} (h : Config.legalDigitCount n) : State.construct n = some (State.resetWith n) :=
  if_pos h

theorem construct_illegal {n : Nat} (h : ¬ Config.legalDigitCount n) : State.construct n = none := if_neg h

/-- Settles O9: construction is the guard on the digit count before reset. -/
theorem constructRefusesIllegalDigitCounts : Obligations.ConstructRefusesIllegalDigitCounts :=
  ⟨fun _ h => construct_illegal (by omega), fun _ hlow hhigh => ⟨_, construct_legal ⟨hlow, hhigh⟩, List.length_replicate⟩⟩

/-- Settles O8: the fields of reset, an empty shadow knowing nothing. -/
theorem resetValues : Obligations.ResetValues :=
  ⟨fun _ => ⟨rfl, rfl, rfl, rfl, rfl, rfl, rfl, fun _ => rfl, rfl, phase_nil⟩, rfl⟩

end Sys2Proof.Machine
end
